-- ==== Sys2Proof/Word.lean ====
section
/-! DEFINITION. The word types of the block: bytes of the two streams and of the buffer, and the clock's 32-bit
values (spec R65, R67). `length`, `capacity` and buffer offsets are natural numbers (log entry 4). -/

namespace Sys2Proof

/-- A byte of a stream, of the buffer, or an 8-bit register (R7, R67). -/
abbrev Byte := BitVec 8

/-- A value of the microsecond clock, or a deadline (R8, `CLK_W` = 32 in R4). -/
abbrev Word32 := BitVec 32

end Sys2Proof
end

