-- ==== Sys2Proof/Syntax.lean ====
section
/-! DEFINITION. The names of the block: its control states, the results of a timed read, the 40 rows of
`spec/opcode_table.json` as `Instr`, the fault causes, and what the other agents can do (`Event`). -/

namespace Sys2Proof

/-- The control state register `st` (R20). -/
inductive St where
  | idle | loopCheck | preSend | flushResync | retryInc | sendCtrl | awaitStart | readBlknum | flushDup | flushDesync
  | readInvblk | readPayload | readCksum | advance | reject | fail | sendCan | sendFinAck | done | failed
  deriving DecidableEq, Repr, Inhabited

/-- The timed-read sub-state register `tst` (R22). -/
inductive Tst where
  | off | arm | poll | chk
  deriving DecidableEq, Repr, Inhabited

/-- The register `last_error` (R29); the fourth code has no name (U2). -/
inductive LastError where
  | none | timeout | block
  deriving DecidableEq, Repr, Inhabited

/-- The big-step result of a timed read (R110). -/
inductive RdResult where
  | byte (b : Byte)
  | timeout
  deriving DecidableEq, Repr, Inhabited

/-- The fault causes T1 to T8 and F1 to F3 (R190). -/
inductive Cause where
  | startTimeout | startNoise | blknumTimeout | invblkMismatch | invblkTimeout | payloadTimeout | cksumMismatch | cksumTimeout
  | retryCeilingExceeded | blockDesync | bufferFull
  deriving DecidableEq, Repr, Inhabited

/-- One constructor per row of `spec/opcode_table.json`, in the table's order. `b` is the byte of `Byte(b)` (42_frame_parser.md);
`r` is the result of the flush's timed read (R96); `w` the timeout operand (R90, R111). -/
inductive Instr where
  -- timed read (40_timed_read.md)
  | trdArm (w : Word32)
  | trdPoll
  | trdChk
  -- session control (41_session_control.md)
  | start (capacityIn : Nat)
  | loopchk
  | presend
  | flushResync (r : RdResult)
  | retryinc
  | sendctl
  | reject
  | fail
  | sendcan
  | finack
  -- frame parser (42_frame_parser.md)
  | awaitTo
  | awaitSoh
  | awaitEot
  | awaitOther (b : Byte)
  | blknumTo
  | blknumDup (b : Byte)
  | blknumBad (b : Byte)
  | blknumOk (b : Byte)
  | flushDup (r : RdResult)
  | flushDesync (r : RdResult)
  | invblkOk (b : Byte)
  | invblkBad (b : Byte)
  | invblkTo
  | payloadByte (b : Byte)
  | payloadTo
  | cksumOk (b : Byte)
  | cksumBad (b : Byte)
  | cksumTo
  | advance
  -- wire constants and wire formats (30_encoding.md section 1)
  | soh
  | eot
  | ack
  | nak
  | can
  | dataFrame (blk inv : Byte) (data : List Byte) (cks : Byte)
  | eotFrame
  | canSequence
  deriving DecidableEq, Repr, Inhabited

/-- The eight wire rows of the table as things that pass over a stream (R80). -/
inductive WireItem where
  | soh
  | eot
  | ack
  | nak
  | can
  | dataFrame (blk inv : Byte) (data : List Byte) (cks : Byte)
  | eotFrame
  | canSequence
  deriving DecidableEq, Repr, Inhabited

/-- The input ports of R38 in one cycle; `rx_valid` and `rx_data` are read off the channel's queue (R39, D14). -/
structure Inputs where
  rst        : Bool
  start      : Bool
  capacityIn : Nat
  txReady    : Bool
  now        : Word32
  deriving DecidableEq, Repr, Inhabited

/-- One move of one agent (00_scope.md section 5). `cycle` is the block's own: one rising edge of `clk`. The others
are the sender and channel (`arrive`, `lose`, `wire`; `lose k` is the loss of a waiting byte behind
the one presented on `rx_data`, with `k` more between the two: the presented byte is never withdrawn, R62, D14) and the
host at rest (`hostTake`, `hostRead`, `hostWrite`, `hostStore`; R74, R204; log entry 13). -/
inductive Event where
  | cycle (inp : Inputs)
  | arrive (b : Byte)
  | lose (k : Nat)
  | wire (w : WireItem)
  | hostTake
  | hostRead (off : Nat)
  | hostWrite (b : Byte)
  | hostStore (off : Nat) (b : Byte)
  deriving DecidableEq, Repr, Inhabited

end Sys2Proof
end

