-- ==== Sys2Proof/Config.lean ====
section
/-! DEFINITION. The parameters of the block with the values this hardware takes (R4, R5), the open width `LEN_W`
(D4), and the free values (constants with no body: nothing can be proved of what they are). -/

namespace Sys2Proof.Config

/-- `BLOCK_SIZE` (R4). -/
@[simp] abbrev blockSize : Nat := 128
/-- `RETRY_CEILING` (R4). -/
@[simp] abbrev retryCeiling : Nat := 10
/-- `T_START_US` (R4). -/
@[simp] abbrev tStart : Word32 := 3000000#32
/-- `T_BYTE_US` (R4). -/
@[simp] abbrev tByte : Word32 := 250000#32
/-- `T_FLUSH_US` (R4, D3). -/
@[simp] abbrev tFlush : Word32 := 250000#32
/-- `CAN_REPEAT` (R4). -/
@[simp] abbrev canRepeat : Nat := 3
/-- `SOH` (R4, R5). -/
@[simp] abbrev soh : Byte := 0x01#8
/-- `EOT` (R4, R5). -/
@[simp] abbrev eot : Byte := 0x04#8
/-- `ACK` (R4, R5). -/
@[simp] abbrev ack : Byte := 0x06#8
/-- `NAK` (R4, R5). -/
@[simp] abbrev nak : Byte := 0x15#8
/-- `CAN` (R4, R5). -/
@[simp] abbrev can : Byte := 0x18#8
/-- `FIRST_BLOCK` (R4). -/
@[simp] abbrev firstBlock : Byte := 1#8

/-- How far `LEN_W` exceeds its least value: the spec leaves it open (D4). Log entry 4. -/
opaque lenWExtra : Nat

/-- `LEN_W`, at least 8 (R4, D4). -/
def lenW : Nat := 8 + lenWExtra

/-- What the other agents do once `script` is exhausted: a free value. Log entry 2. -/
opaque freeEvent : Nat → Event

/-- Whether the byte being written when `rst` comes has gone out (R230, U7): a free value. Log entry 11. -/
opaque freeWriteGone : Nat → Bool

end Sys2Proof.Config
end

