-- ==== Sys2Proof/WellFormed.lean ====
section
/-! DEFINITION. Which operands an encoding admits (`Instr.wf`), and which operations the registers they are compared
with can select (`Instr.agrees`; R91 to R95). -/

namespace Sys2Proof

/-- The checksum of a list of bytes: their sum modulo 256 (R14). -/
def sumBytes : List Byte → Byte
  | [] => 0#8
  | b :: bs => b + sumBytes bs

/-- A data frame as R81 gives it: 128 payload bytes, the inverse and the checksum right. -/
def frameWf (blk inv : Byte) (data : List Byte) (cks : Byte) : Bool :=
  decide (data.length = Config.blockSize) && decide (inv = ~~~blk) && decide (cks = sumBytes data)

/-- Operands the encoding admits: the timeout constants of R90, a `capacity_in` of `LEN_W` bits (R36), the 254 values
of class OTHER (R91), a right data frame (R81). Every other operand is free. -/
def Instr.wf : Instr → Bool
  | .trdArm w => decide (w = Config.tStart) || decide (w = Config.tByte) || decide (w = Config.tFlush)
  | .start c => decide (c < 2 ^ Config.lenW)
  | .awaitOther b => decide (b ≠ Config.soh) && decide (b ≠ Config.eot)
  | .dataFrame blk inv data cks => frameWf blk inv data cks
  | .trdPoll | .trdChk | .loopchk | .presend | .flushResync _ | .retryinc | .sendctl | .reject | .fail | .sendcan
  | .finack | .awaitTo | .awaitSoh | .awaitEot | .blknumTo | .blknumDup _ | .blknumBad _ | .blknumOk _ | .flushDup _
  | .flushDesync _ | .invblkOk _ | .invblkBad _ | .invblkTo | .payloadByte _ | .payloadTo | .cksumOk _ | .cksumBad _
  | .cksumTo | .advance | .soh | .eot | .ack | .nak | .can | .eotFrame | .canSequence => true

/-- The byte of a class that is compared with a register belongs to that class, `exp` and `cks` being
`expected_block_number` and `checksum` (R92, R93, R95). -/
def Instr.agrees (exp cks : Byte) : Instr → Bool
  | .blknumDup b => decide (b = exp - 1#8)
  | .blknumBad b => decide (b ≠ exp - 1#8) && decide (b ≠ exp)
  | .blknumOk b => decide (b = exp)
  | .invblkOk b => decide (b = ~~~exp)
  | .invblkBad b => decide (b ≠ ~~~exp)
  | .cksumOk b => decide (b = cks)
  | .cksumBad b => decide (b ≠ cks)
  | .trdArm _ | .trdPoll | .trdChk | .start _ | .loopchk | .presend | .flushResync _ | .retryinc | .sendctl | .reject
  | .fail | .sendcan | .finack | .awaitTo | .awaitSoh | .awaitEot | .awaitOther _ | .blknumTo | .flushDup _
  | .flushDesync _ | .invblkTo | .payloadByte _ | .payloadTo | .cksumTo | .advance | .soh | .eot | .ack | .nak | .can
  | .dataFrame _ _ _ _ | .eotFrame | .canSequence => true

end Sys2Proof
end

