-- ==== Sys2Proof/Decode.lean ====
section
/-! DEFINITION. What selects each operation. A `Code` is what the decoder looks at: the codes of `st` and `tst` with the
event met there (R3, R20, R22, R91 to R96), one wire constant, or the bytes of one wire format (R80 to R84). `decode` is
total and rejects by name; `encode` is written from the same tables. The form of a `Code` is the model's (log entry 19);
its numbers are the spec's. -/

namespace Sys2Proof

/-- The code of a control state (R20). -/
def St.code : St → BitVec 5
  | .idle => 0 | .loopCheck => 1 | .preSend => 2 | .flushResync => 3 | .retryInc => 4 | .sendCtrl => 5 | .awaitStart => 6
  | .readBlknum => 7 | .flushDup => 8 | .flushDesync => 9 | .readInvblk => 10 | .readPayload => 11 | .readCksum => 12
  | .advance => 13 | .reject => 14 | .fail => 15 | .sendCan => 16 | .sendFinAck => 17 | .done => 18 | .failed => 19

/-- The control state of a code; codes 20 to 31 are reserved (R20, R100). -/
def St.ofCode (c : BitVec 5) : Option St :=
  [St.idle, .loopCheck, .preSend, .flushResync, .retryInc, .sendCtrl, .awaitStart, .readBlknum, .flushDup, .flushDesync,
    .readInvblk, .readPayload, .readCksum, .advance, .reject, .fail, .sendCan, .sendFinAck, .done, .failed][c.toNat]?

/-- The code of a timed-read sub-state (R22). -/
def Tst.code : Tst → BitVec 2
  | .off => 0 | .arm => 1 | .poll => 2 | .chk => 3

/-- The timed-read sub-state of a code (R22). -/
def Tst.ofCode (c : BitVec 2) : Tst :=
  if c = 0 then .off else if c = 1 then .arm else if c = 2 then .poll else .chk

/-- The code of `last_error` (R29). -/
def LastError.code : LastError → BitVec 2
  | .none => 0 | .timeout => 1 | .block => 2

/-- The timeout operand `w` of the timed read of a reading state (R90); no other state has one. -/
def St.timeout : St → Option Word32
  | .awaitStart => some Config.tStart
  | .readBlknum | .readInvblk | .readPayload | .readCksum => some Config.tByte
  | .flushResync | .flushDup | .flushDesync => some Config.tFlush
  | .idle | .loopCheck | .preSend | .retryInc | .sendCtrl | .advance | .reject | .fail | .sendCan | .sendFinAck | .done
  | .failed => none

/-- The event met in a control state: nothing, the host's START, or the result of the timed read (R3, R23). -/
inductive OpEvent where
  | quiet
  | start (capacityIn : Nat)
  | timeout
  | byte (b : Byte)
  deriving DecidableEq, Repr, Inhabited

/-- The result of a timed read as the event it is. -/
def RdResult.event : RdResult → OpEvent
  | .byte b => .byte b
  | .timeout => .timeout

/-- What selects one of the 32 operations: the codes of `st` and `tst` and the event (R103). -/
structure OpWord where
  st    : BitVec 5
  tst   : BitVec 2
  event : OpEvent
  deriving DecidableEq, Repr, Inhabited

/-- What the decoder looks at. -/
inductive Code where
  | op (w : OpWord)
  | const (b : Byte)
  | frame (bytes : List Byte)
  deriving DecidableEq, Repr, Inhabited

/-- Why nothing is selected, by name. -/
inductive DecodeError where
  /-- codes 20 to 31 of `st` (R20, U3) -/
  | reservedState
  /-- `tst = T_ARM` in a state with no timeout operand (R22, R90) -/
  | noTimeoutInState
  /-- a resting state with no START: no operation (R144) -/
  | atRest
  /-- a reading state whose timed read has not begun (R110) -/
  | readNotBegun
  /-- START while `busy = 1`: ignored (R145) -/
  | startWhileBusy
  /-- a result of a timed read in a state that reads nothing (R148) -/
  | resultNotAwaited
  /-- a byte that is no wire constant (R5) -/
  | notAConstant
  /-- a first byte that begins no wire format (R80, R101) -/
  | frameStart
  /-- a wrong number of bytes (R101) -/
  | frameLength
  /-- byte 2 of a data frame is not the complement of byte 1 (R81) -/
  | frameInverse
  /-- the last byte of a data frame is not the sum of its payload (R81) -/
  | frameChecksum
  deriving DecidableEq, Repr, Inhabited

/-- The predecessor of the expected block number: the number of a duplicate (R11, R92). -/
abbrev prevBlock (exp : Byte) : Byte := exp - 1#8

/-- The inverse of a block number (R12). -/
abbrev inverseBlock (n : Byte) : Byte := ~~~n

/-- The frame classifier (R91). -/
def classifyAwait : RdResult → Instr
  | .timeout => .awaitTo
  | .byte b => if b = Config.soh then .awaitSoh else if b = Config.eot then .awaitEot else .awaitOther b

/-- The block-number validator, its tests in the order of R92 and R179. -/
def classifyBlknum (exp : Byte) : RdResult → Instr
  | .timeout => .blknumTo
  | .byte b => if b = prevBlock exp then .blknumDup b else if b ≠ exp then .blknumBad b else .blknumOk b

/-- The inverse check (R87, R93): with the complement of the register. -/
def classifyInvblk (exp : Byte) : RdResult → Instr
  | .timeout => .invblkTo
  | .byte b => if b = inverseBlock exp then .invblkOk b else .invblkBad b

/-- The payload position: every byte is data (R88, R94). -/
def classifyPayload : RdResult → Instr
  | .timeout => .payloadTo
  | .byte b => .payloadByte b

/-- The checksum check (R89, R95). -/
def classifyCksum (cks : Byte) : RdResult → Instr
  | .timeout => .cksumTo
  | .byte b => if b = cks then .cksumOk b else .cksumBad b

/-- A state selected by `st` alone (R103). -/
def decodeControl (i : Instr) : OpEvent → Except DecodeError Instr
  | .quiet => .ok i
  | .start _ => .error .startWhileBusy
  | .timeout | .byte _ => .error .resultNotAwaited

/-- A reading state: the class of the result of its timed read (R91 to R96). -/
def decodeReading (classify : RdResult → Instr) : OpEvent → Except DecodeError Instr
  | .timeout => .ok (classify .timeout)
  | .byte b => .ok (classify (.byte b))
  | .quiet => .error .readNotBegun
  | .start _ => .error .startWhileBusy

/-- A resting state: START or nothing (R36, R144). -/
def decodeRest : OpEvent → Except DecodeError Instr
  | .start c => .ok (.start c)
  | .quiet | .timeout | .byte _ => .error .atRest

/-- The operation map by control state when no timed read is in progress (R91 to R96, R103). -/
def decodeState (exp cks : Byte) (e : OpEvent) : St → Except DecodeError Instr
  | .idle => decodeRest e
  | .loopCheck => decodeControl .loopchk e
  | .preSend => decodeControl .presend e
  | .flushResync => decodeReading .flushResync e
  | .retryInc => decodeControl .retryinc e
  | .sendCtrl => decodeControl .sendctl e
  | .awaitStart => decodeReading classifyAwait e
  | .readBlknum => decodeReading (classifyBlknum exp) e
  | .flushDup => decodeReading .flushDup e
  | .flushDesync => decodeReading .flushDesync e
  | .readInvblk => decodeReading (classifyInvblk exp) e
  | .readPayload => decodeReading classifyPayload e
  | .readCksum => decodeReading (classifyCksum cks) e
  | .advance => decodeControl .advance e
  | .reject => decodeControl .reject e
  | .fail => decodeControl .fail e
  | .sendCan => decodeControl .sendcan e
  | .sendFinAck => decodeControl .finack e
  | .done => decodeRest e
  | .failed => decodeRest e

/-- The operation a selection stands for: `tst` decides first (R103), `exp` and `cks` being the registers the classes
of R92, R93 and R95 compare with. -/
def decodeOp (exp cks : Byte) (w : OpWord) : Except DecodeError Instr :=
  match St.ofCode w.st with
  | none => .error .reservedState
  | some st =>
    match Tst.ofCode w.tst with
    | .off => decodeState exp cks w.event st
    | .arm => match st.timeout with
      | some t => .ok (.trdArm t)
      | none => .error .noTimeoutInState
    | .poll => .ok .trdPoll
    | .chk => .ok .trdChk

/-- The wire constant of a byte (R5, R97). -/
def decodeConst (b : Byte) : Except DecodeError Instr :=
  if b = Config.soh then .ok .soh
  else if b = Config.eot then .ok .eot
  else if b = Config.ack then .ok .ack
  else if b = Config.nak then .ok .nak
  else if b = Config.can then .ok .can
  else .error .notAConstant

/-- The data frame after its first byte (R81). -/
def decodeDataFrame : List Byte → Except DecodeError Instr
  | blk :: inv :: rest =>
    match rest.drop Config.blockSize with
    | [cks] =>
      let data := rest.take Config.blockSize
      if inv ≠ inverseBlock blk then .error .frameInverse
      else if cks ≠ sumBytes data then .error .frameChecksum
      else .ok (.dataFrame blk inv data cks)
    | _ => .error .frameLength
  | _ => .error .frameLength

/-- The wire format of a list of bytes; the first byte alone tells them apart (R81, R82, R84, R101). -/
def decodeFrame : List Byte → Except DecodeError Instr
  | [] => .error .frameLength
  | b :: rest =>
    if b = Config.soh then decodeDataFrame rest
    else if b = Config.eot then (if rest = [] then .ok .eotFrame else .error .frameLength)
    else if b = Config.can then (if rest = [Config.can, Config.can] then .ok .canSequence else .error .frameLength)
    else .error .frameStart

/-- The decoder: total, every rejection by name. -/
def decode (exp cks : Byte) : Code → Except DecodeError Instr
  | .op w => decodeOp exp cks w
  | .const b => decodeConst b
  | .frame bytes => decodeFrame bytes

/-- The bytes of a data frame (R81). -/
def frameBytes (blk inv : Byte) (data : List Byte) (cks : Byte) : List Byte :=
  Config.soh :: blk :: inv :: (data ++ [cks])

/-- The code of an operation selected by `st` and an event, no timed read in progress. -/
def opCode (st : St) (e : OpEvent) : Code := .op ⟨st.code, Tst.off.code, e⟩

/-- The code that selects an instruction, from the operation map (R91 to R96, R103) and the wire formats (R81 to R84).
Where several states select it (the timed-read operations, START), one of them. -/
def encode : Instr → Code
  | .trdArm w => .op ⟨(if w = Config.tStart then St.awaitStart else St.readBlknum).code, Tst.arm.code, .quiet⟩
  | .trdPoll => .op ⟨St.awaitStart.code, Tst.poll.code, .quiet⟩
  | .trdChk => .op ⟨St.awaitStart.code, Tst.chk.code, .quiet⟩
  | .start c => opCode .idle (.start c)
  | .loopchk => opCode .loopCheck .quiet
  | .presend => opCode .preSend .quiet
  | .flushResync r => opCode .flushResync r.event
  | .retryinc => opCode .retryInc .quiet
  | .sendctl => opCode .sendCtrl .quiet
  | .reject => opCode .reject .quiet
  | .fail => opCode .fail .quiet
  | .sendcan => opCode .sendCan .quiet
  | .finack => opCode .sendFinAck .quiet
  | .awaitTo => opCode .awaitStart .timeout
  | .awaitSoh => opCode .awaitStart (.byte Config.soh)
  | .awaitEot => opCode .awaitStart (.byte Config.eot)
  | .awaitOther b => opCode .awaitStart (.byte b)
  | .blknumTo => opCode .readBlknum .timeout
  | .blknumDup b => opCode .readBlknum (.byte b)
  | .blknumBad b => opCode .readBlknum (.byte b)
  | .blknumOk b => opCode .readBlknum (.byte b)
  | .flushDup r => opCode .flushDup r.event
  | .flushDesync r => opCode .flushDesync r.event
  | .invblkOk b => opCode .readInvblk (.byte b)
  | .invblkBad b => opCode .readInvblk (.byte b)
  | .invblkTo => opCode .readInvblk .timeout
  | .payloadByte b => opCode .readPayload (.byte b)
  | .payloadTo => opCode .readPayload .timeout
  | .cksumOk b => opCode .readCksum (.byte b)
  | .cksumBad b => opCode .readCksum (.byte b)
  | .cksumTo => opCode .readCksum .timeout
  | .advance => opCode .advance .quiet
  | .soh => .const Config.soh
  | .eot => .const Config.eot
  | .ack => .const Config.ack
  | .nak => .const Config.nak
  | .can => .const Config.can
  | .dataFrame blk inv data cks => .frame (frameBytes blk inv data cks)
  | .eotFrame => .frame [Config.eot]
  | .canSequence => .frame [Config.can, Config.can, Config.can]

/-- The first `n` bytes of a number, the least significant first: the order in which the table numbers them. -/
def bytesOf : Nat → Nat → List Byte
  | 0, _ => []
  | n + 1, w => BitVec.ofNat 8 w :: bytesOf n (w / 256)

/-- The row of the table a single byte selects, in the table's order: the rows of `AWAIT_START` with a fixed byte, then
the wire constants, then `PAYLOAD.BYTE`, whose mask 0x00 every byte matches (R103). Log entry 8. -/
def decodeTableByte (b : Byte) : Option Instr :=
  match decode 0 0 (opCode .awaitStart (.byte b)) with
  | .ok .awaitSoh => some .awaitSoh
  | .ok .awaitEot => some .awaitEot
  | _ => match decode 0 0 (.const b) with
    | .ok i => some i
    | .error _ => (decode 0 0 (opCode .readPayload (.byte b))).toOption

/-- The instruction of a table word of `nbits` bits: one byte is a row selected by a byte, more bytes are a wire
format. Log entry 8. -/
def decodeTableWord (nbits w : Nat) : Option Instr :=
  if nbits = 8 then decodeTableByte (BitVec.ofNat 8 w)
  else if nbits % 8 = 0 then (decode 0 0 (.frame (bytesOf (nbits / 8) w))).toOption
  else none

end Sys2Proof
end

