-- ==== Sys2Proof/Machine/State.lean ====
section
/-! DEFINITION. The state of the machine, everything the spec gives it (10_state.md R20 to R45, 20_memory.md R60), its
fault and refusal reasons, and the state after reset (R44, R230). -/

namespace Sys2Proof.Machine

/-- The caller's buffer: cells by offset, offsets strictly rising (R61, R66). An unlisted offset reads as no value: the
block never reads the buffer (R68), so what it held before is not the model's to say. Log entry 6. -/
abbrev Memory := List Host.Cell

/-- The state. Registers and output ports first, then the four spaces as the block meets them (R60), then the model's
own fields. -/
structure State where
  /-- control state (R20) -/
  st : St
  /-- timed-read sub-state (R22) -/
  tst : Tst
  /-- bytes accepted so far (R24) -/
  length : Nat
  /-- `expected_block_number` (R25) -/
  expectedBlockNumber : Byte
  /-- `retry_count` (R26) -/
  retryCount : BitVec 4
  /-- `pending_ack` (R27) -/
  pendingAck : Byte
  /-- running payload sum (R28) -/
  checksum : Byte
  /-- `last_error` (R29) -/
  lastError : LastError
  /-- payload bytes of the block in progress stored so far (R30) -/
  byteIndex : Byte
  /-- deadline of the timed read in progress (R31) -/
  deadline : Word32
  /-- cancel bytes written so far (R32) -/
  canCount : BitVec 2
  /-- buffer size (R33) -/
  capacity : Nat
  /-- output `tx_valid` in the cycle just done: a byte was offered, and written if `tx_ready` was 1 too (R38) -/
  txValid : Bool
  /-- output `tx_data`: the byte, while `tx_valid` is 1 (R38) -/
  txData : Byte
  /-- output `rx_pop`, pulsed in the cycle just done (R38) -/
  rxPop : Bool
  /-- output `buf_we`, pulsed in the cycle just done (R38) -/
  bufWe : Bool
  /-- output `buf_off` (R38) -/
  bufOff : Nat
  /-- output `buf_wdata` (R38) -/
  bufWdata : Byte
  /-- the caller's buffer (R61) -/
  mem : Memory
  /-- the channel's receive queue, oldest first (R39, R62) -/
  rx : List Byte
  /-- the transmit stream: every byte written, oldest first (R63) -/
  tx : List Byte
  /-- the input ports in the current cycle (R36, R38, R40) -/
  inp : Inputs
  /-- the model's own: the result of the timed read just completed, until an operation consumes it (R112, R113) -/
  result : Option RdResult
  /-- the model's own: the moves of the agents to come; log entry 2 -/
  script : List Event
  /-- the model's own: the counter the free values are applied to; log entries 2 and 11 -/
  draws : Nat
  deriving DecidableEq, Repr

/-- Why the machine stops with a fault. -/
inductive Fault where
  /-- Raised by `step` in a block cycle when `tst`, `st` and the event select no operation: R148 says it cannot occur.
  Safe: the model stops where the spec allows nothing; no state a run reaches raises it. Log entry 12. -/
  | unlistedSelection
  deriving DecidableEq, Repr

/-- Why the model gives no meaning. -/
inductive Refusal where
  /-- Raised by an arm of `exec` for an instruction without a meaning yet. Safe. No arm raises it now. -/
  | notModelled (mnemonic : String)
  /-- Raised by `step` when another agent takes bytes from the channel, writes to it, or reads or writes the buffer while
  `busy = 1`: the spec takes exclusivity as a precondition (R74, U6 `refuse`). Safe. Log entry 13. -/
  | exclusivityBroken
  deriving DecidableEq, Repr

/-- The outcome of an operation or a step. -/
abbrev Result := Host.Outcome State Fault Refusal

/-- The input ports with every signal low: what `inp` holds before any cycle. Log entry 10. -/
def quietInputs : Inputs := ⟨false, false, 0, false, 0#32⟩

/-- The machine right after reset: the column "after `rst`" of R44. Log entry 10 names the fields it does not give. -/
def State.reset : State where
  st := .idle
  tst := .off
  length := 0
  expectedBlockNumber := 1#8
  retryCount := 0#4
  pendingAck := 0x15#8
  checksum := 0#8
  lastError := .none
  byteIndex := 0#8
  deadline := 0#32
  canCount := 0#2
  capacity := 0
  txValid := false
  txData := 0#8
  rxPop := false
  bufWe := false
  bufOff := 0
  bufWdata := 0#8
  mem := []
  rx := []
  tx := []
  inp := quietInputs
  result := none
  script := []
  draws := 0

end Sys2Proof.Machine
end

