-- ==== Sys2Proof/Machine/Flags.lean ====
section
/-! DEFINITION. What has no storage of its own: the status flags (R35), the result outputs (R37), the receive port as
read off the channel's queue (R38, R39), and the groups of control states. -/

namespace Sys2Proof.Machine

/-- The resting states (R144). -/
def atRest : St → Bool
  | .idle | .done | .failed => true
  | .loopCheck | .preSend | .flushResync | .retryInc | .sendCtrl | .awaitStart | .readBlknum | .flushDup | .flushDesync
  | .readInvblk | .readPayload | .readCksum | .advance | .reject | .fail | .sendCan | .sendFinAck => false

/-- The eight reading states (R22): those with a timeout operand (R90). -/
def reading (st : St) : Bool := st.timeout.isSome

/-- `busy` (R35). -/
def busy (s : State) : Bool := decide (s.st ≠ .idle ∧ s.st ≠ .done ∧ s.st ≠ .failed)

/-- `done` (R35). -/
def done (s : State) : Bool := decide (s.st = .done ∨ s.st = .failed)

/-- `ok` (R35). -/
def ok (s : State) : Bool := decide (s.st = .done)

/-- `result_len` (R37). -/
def resultLen (s : State) : Nat := s.length

/-- `last_error_out`: the code of `last_error` (R29, R37). -/
def lastErrorOut (s : State) : BitVec 2 := s.lastError.code

/-- `rx_valid`: the channel has a byte to give (R38, D14). -/
def rxValid (s : State) : Bool := !s.rx.isEmpty

/-- `rx_data`: the oldest unread byte, looked at only when `rx_valid` = 1 (R38, U14). -/
def rxData (s : State) : Option Byte := s.rx.head?

end Sys2Proof.Machine
end

