-- ==== Sys2Proof/Machine/Operands.lean ====
section
/-! DEFINITION. The arithmetic of the block (00_scope.md R11 to R17): deadlines, the loop condition, the retry test.
Block-number arithmetic (R11, R12) is in Decode.lean, which classifies with it. -/

namespace Sys2Proof.Machine

/-- The deadline of a timed read of `w` microseconds armed at `t0`, modular in 32 bits (R13, R111). -/
def deadlineOf (t0 w : Word32) : Word32 := t0 + w

/-- The expiry test: bit 31 of `(now - deadline) mod 2^32` is 0 (R13, R113). -/
def expired (now deadline : Word32) : Bool := !(now - deadline).getLsbD 31

/-- The next block number, modulo 256 (R11). -/
def nextBlock (exp : Byte) : Byte := exp + 1#8

/-- The checksum after one more payload byte (R14). -/
def addChecksum (cks b : Byte) : Byte := cks + b

/-- The loop condition `length + BLOCK_SIZE <= capacity`, mathematical (R17, R132). -/
def headroom (length capacity : Nat) : Bool := decide (length + Config.blockSize ≤ capacity)

/-- `retry_count + 1`, mathematical (R15). -/
def retryNext (rc : BitVec 4) : Nat := rc.toNat + 1

/-- `length - byte_index`: the committed length (R16, R43). Log entry 14. -/
def committed (length : Nat) (byteIndex : Byte) : Nat := length - byteIndex.toNat

end Sys2Proof.Machine
end

