-- ==== Sys2Proof/Machine/Ops.lean ====
section
/-! DEFINITION. The shared operations over memory, streams and registers, and the entry of a fault. -/

namespace Sys2Proof.Machine

/-- One byte of the buffer; no value where nothing has been written (log entry 6). -/
def Memory.read : Memory → Nat → Option Byte
  | [], _ => none
  | (k, w) :: m, a => if k = a then some w else Memory.read m a

/-- Store one byte, keeping the canonical form. -/
def Memory.write : Memory → Nat → Byte → Memory
  | [], a, v => [(a, v)]
  | (k, w) :: m, a, v =>
    if a < k then (a, v) :: (k, w) :: m
    else if a = k then (a, v) :: m
    else (k, w) :: Memory.write m a v

/-- Every offset of a memory is above `a`. -/
def Memory.above (a : Nat) : Memory → Bool
  | [] => true
  | (k, _) :: m => decide (a < k) && Memory.above a m

/-- The canonical form: offsets strictly rising (no byte equals what an unlisted offset reads as, which is no value). -/
def Memory.wf : Memory → Bool
  | [] => true
  | (k, _) :: m => Memory.above k m && Memory.wf m

/-- `st <- NAME` (R23). -/
def State.goto (s : State) (st : St) : State := { s with st := st }

/-- The result of the timed read is consumed by the operation it selects and not kept (R45). -/
def State.consume (s : State) : State := { s with result := none }

/-- `ChanPoll` (R6, R38): the oldest byte of the queue is taken and `rx_pop` pulsed, or nothing happens. -/
def chanPoll (s : State) : Option Byte × State :=
  match s.rx with
  | [] => (none, s)
  | b :: rest => (some b, { s with rx := rest, rxPop := true })

/-- Bytes put in the transmit stream behind those already there (R63). -/
def transmit (bs : List Byte) (s : State) : State := { s with tx := s.tx ++ bs }

/-- The byte is offered on the transmit port (R38). -/
def offer (b : Byte) (s : State) : State := { s with txValid := true, txData := b }

/-- `ChanWrite(b)` followed by what the operation does once the byte is accepted (R7, R38, D15): the byte is offered, and in
the cycle in which `tx_valid` and `tx_ready` are both 1 it joins the transmit stream; until then nothing else happens.
`tx_valid` drops in the next cycle (`beginCycle`). Log entry 16. -/
def chanWrite (b : Byte) (after : State → State) (s : State) : State :=
  if s.inp.txReady then after (transmit [b] (offer b s)) else offer b s

/-- `BufWrite(off, b)` (R9, R38): one byte stored, `buf_we` pulsed. -/
def bufWrite (off : Nat) (b : Byte) (s : State) : State :=
  { s with mem := Memory.write s.mem off b, bufWe := true, bufOff := off, bufWdata := b }

/-- Bytes put in the receive stream behind those already there (R62). -/
def receive (bs : List Byte) (s : State) : State := { s with rx := s.rx ++ bs }

/-- A cause is transient (T1 to T8) or terminal (F1 to F3) (R190). -/
def transient : Cause → Bool
  | .startTimeout | .startNoise | .blknumTimeout | .invblkMismatch | .invblkTimeout | .payloadTimeout | .cksumMismatch
  | .cksumTimeout => true
  | .retryCeilingExceeded | .blockDesync | .bufferFull => false

/-- Taking a fault: `raise Retry(cause)` (R197) or `raise Terminal(cause)` (R196). Nothing is saved and the cause is not
recorded; `last_error` was written by the raising rule. There is no return operation (R201): the retry's way back is
`REJECT`, which falls into the next attempt. -/
def raise (c : Cause) (s : State) : State := s.goto (if transient c then .reject else .fail)

end Sys2Proof.Machine
end

