-- ==== Sys2Proof/Machine/FrameParser.lean ====
section
/-! DEFINITION. The meanings of the frame-parser family (42_frame_parser.md). The byte of `Byte(b)` has decided which
operation runs; only `PAYLOAD.BYTE` uses its value again. -/

namespace Sys2Proof.Machine

/-- `AWAIT.TO` (R160). -/
def execAwaitTo (s : State) : Result := .next (raise .startTimeout s.consume)

/-- `AWAIT.SOH` (R161). -/
def execAwaitSoh (s : State) : Result := .next (s.consume.goto .readBlknum)

/-- `AWAIT.EOT` (R162). -/
def execAwaitEot (s : State) : Result := .next (s.consume.goto .sendFinAck)

/-- `AWAIT.OTHER` (R163). -/
def execAwaitOther (_b : Byte) (s : State) : Result := .next (raise .startNoise s.consume)

/-- `BLKNUM.TO` (R164). -/
def execBlknumTo (s : State) : Result := .next (raise .blknumTimeout s.consume)

/-- `BLKNUM.DUP` (R165). -/
def execBlknumDup (_b : Byte) (s : State) : Result := .next (s.consume.goto .flushDup)

/-- `BLKNUM.BAD` (R167): the fault F2 is raised when the flush completes (R168). -/
def execBlknumBad (_b : Byte) (s : State) : Result := .next (s.consume.goto .flushDesync)

/-- `BLKNUM.OK` (R169). -/
def execBlknumOk (_b : Byte) (s : State) : Result := .next (s.consume.goto .readInvblk)

/-- `FLUSH.DUP` (R166). -/
def execFlushDup (r : RdResult) (s : State) : Result :=
  match r with
  | .byte _ => .next s.consume
  | .timeout => .next ({ s.consume with pendingAck := Config.ack }.goto .loopCheck)

/-- `FLUSH.DESYNC` (R168). -/
def execFlushDesync (r : RdResult) (s : State) : Result :=
  match r with
  | .byte _ => .next s.consume
  | .timeout => .next (raise .blockDesync { s.consume with lastError := .block })

/-- `INVBLK.OK` (R170). -/
def execInvblkOk (_b : Byte) (s : State) : Result :=
  .next ({ s.consume with byteIndex := 0#8, checksum := 0#8 }.goto .readPayload)

/-- `INVBLK.BAD` (R171). -/
def execInvblkBad (_b : Byte) (s : State) : Result := .next (raise .invblkMismatch s.consume)

/-- `INVBLK.TO` (R172). -/
def execInvblkTo (s : State) : Result := .next (raise .invblkTimeout s.consume)

/-- `PAYLOAD.BYTE` (R174): the store is made without a test of `capacity`, which `LOOPCHK` has made (R70, log entry 6);
line 5 tests the value line 4 wrote. -/
def execPayloadByte (b : Byte) (s : State) : Result :=
  let s1 := bufWrite s.length b s.consume
  let bi := s1.byteIndex + 1#8
  .next ({ s1 with length := s1.length + 1, checksum := addChecksum s1.checksum b, byteIndex := bi }.goto
    (if bi = BitVec.ofNat 8 Config.blockSize then .readCksum else .readPayload))

/-- `PAYLOAD.TO` (R173). -/
def execPayloadTo (s : State) : Result := .next (raise .payloadTimeout s.consume)

/-- `CKSUM.OK` (R175). -/
def execCksumOk (_b : Byte) (s : State) : Result := .next (s.consume.goto .advance)

/-- `CKSUM.BAD` (R176). -/
def execCksumBad (_b : Byte) (s : State) : Result := .next (raise .cksumMismatch s.consume)

/-- `CKSUM.TO` (R177). -/
def execCksumTo (s : State) : Result := .next (raise .cksumTimeout s.consume)

/-- `ADVANCE` (R178). -/
def execAdvance (s : State) : Result :=
  .next ({ s with
    pendingAck := Config.ack, expectedBlockNumber := nextBlock s.expectedBlockNumber, byteIndex := 0#8 }.goto .loopCheck)

end Sys2Proof.Machine
end

