-- ==== Sys2Proof/Machine/SessionControl.lean ====
section
/-! DEFINITION. The meanings of the session-control family (41_session_control.md). -/

namespace Sys2Proof.Machine

/-- What START writes (R130): every register but `deadline`. -/
def startRun (capacityIn : Nat) (s : State) : State :=
  { s with
    capacity := capacityIn, length := 0, expectedBlockNumber := Config.firstBlock, retryCount := 0#4,
    pendingAck := Config.nak, lastError := .none, checksum := 0#8, byteIndex := 0#8, canCount := 0#2, tst := .off,
    result := none, st := .loopCheck }

/-- `START` (R130): accepted at rest, ignored while `busy = 1` (R145). -/
def execStart (capacityIn : Nat) (s : State) : Result :=
  if busy s then .next s else .next (startRun capacityIn s)

/-- `LOOPCHK` (R132): F3 `BUFFER_FULL` when fewer than `BLOCK_SIZE` bytes are free; `last_error` is left as it is. -/
def execLoopchk (s : State) : Result :=
  if headroom s.length s.capacity then .next (s.goto .preSend) else .next (raise .bufferFull s)

/-- `PRESEND` (R133). -/
def execPresend (s : State) : Result :=
  if s.pendingAck = Config.ack then .next ({ s with retryCount := 0#4 }.goto .retryInc)
  else .next (s.goto .flushResync)

/-- `FLUSH.RESYNC` (R134). -/
def execFlushResync (r : RdResult) (s : State) : Result :=
  match r with
  | .byte _ => .next s.consume
  | .timeout => .next (s.consume.goto .retryInc)

/-- `RETRYINC` (R136): the ceiling is tested on the mathematical sum (R15). -/
def execRetryinc (s : State) : Result :=
  let n := retryNext s.retryCount
  let s1 := { s with retryCount := BitVec.ofNat 4 n }
  if n > Config.retryCeiling then .next (raise .retryCeilingExceeded { s1 with lastError := .timeout })
  else .next (s1.goto .sendCtrl)

/-- `SENDCTL` (R137). -/
def execSendctl (s : State) : Result :=
  .next (chanWrite s.pendingAck (fun t => { t with pendingAck := Config.nak }.goto .awaitStart) s)

/-- `REJECT` (R138). -/
def execReject (s : State) : Result :=
  .next ({ s with length := committed s.length s.byteIndex, byteIndex := 0#8 }.goto .loopCheck)

/-- `FAIL` (R139). -/
def execFail (s : State) : Result := .next ({ s with canCount := 0#2 }.goto .sendCan)

/-- `SENDCAN` (R140): the count is tested after the increment. -/
def execSendcan (s : State) : Result :=
  .next (chanWrite Config.can
    (fun t =>
      let n := t.canCount + 1#2
      { t with canCount := n }.goto (if n = BitVec.ofNat 2 Config.canRepeat then .failed else .sendCan)) s)

/-- `FINACK` (R141). -/
def execFinack (s : State) : Result :=
  .next (chanWrite Config.ack (fun t => { t with lastError := .none }.goto .done) s)

end Sys2Proof.Machine
end

