-- ==== Sys2Proof/Machine/TimedRead.lean ====
section
/-! DEFINITION. The meanings of the timed-read family (40_timed_read.md). -/

namespace Sys2Proof.Machine

/-- `TRD.ARM` (R111). -/
def execTrdArm (w : Word32) (s : State) : Result :=
  .next { s with deadline := deadlineOf s.inp.now w, tst := .poll }

/-- `TRD.POLL` (R112): the clock is not consulted. -/
def execTrdPoll (s : State) : Result :=
  match chanPoll s with
  | (some b, s') => .next { s' with result := some (.byte b), tst := .off }
  | (none, s') => .next { s' with tst := .chk }

/-- `TRD.CHK` (R113). -/
def execTrdChk (s : State) : Result :=
  if expired s.inp.now s.deadline then .next { s with result := some .timeout, tst := .off }
  else .next { s with tst := .poll }

end Sys2Proof.Machine
end

