-- ==== Sys2Proof/Machine/Wire.lean ====
section
/-! DEFINITION. The meanings of the wire rows (30_encoding.md section 1): each item passes over its stream, whole and
in order, behind what is there (R62, R63, R80). What the block does with a received item is the operations its bytes
select (R91 to R96). Log entry 7. -/

namespace Sys2Proof.Machine

/-- `SOH` received (R81, R97). -/
def execSoh (s : State) : Result := .next (receive [Config.soh] s)

/-- `EOT` received (R82). -/
def execEot (s : State) : Result := .next (receive [Config.eot] s)

/-- `ACK` written (R83, R97). -/
def execAck (s : State) : Result := .next (transmit [Config.ack] s)

/-- `NAK` written (R83, R97). -/
def execNak (s : State) : Result := .next (transmit [Config.nak] s)

/-- `CAN` written (R84, R97). -/
def execCan (s : State) : Result := .next (transmit [Config.can] s)

/-- `DATA_FRAME` received: 132 bytes when its payload is 128 bytes long (R81). -/
def execDataFrame (blk inv : Byte) (data : List Byte) (cks : Byte) (s : State) : Result :=
  .next (receive (frameBytes blk inv data cks) s)

/-- `EOT_FRAME` received (R82). -/
def execEotFrame (s : State) : Result := .next (receive [Config.eot] s)

/-- `CAN_SEQUENCE` written: nothing stands between the three bytes (R84). -/
def execCanSequence (s : State) : Result := .next (transmit [Config.can, Config.can, Config.can] s)

end Sys2Proof.Machine
end

