-- ==== Sys2Proof/Machine/Dispatch.lean ====
section
/-! DEFINITION. One arm per row of the operation table. -/

namespace Sys2Proof.Machine

def exec (i : Instr) (s : State) : Host.Outcome State Fault Refusal :=
  match i with
  | .trdArm w => Sys2Proof.Machine.execTrdArm w s
  | .trdPoll => Sys2Proof.Machine.execTrdPoll s
  | .trdChk => Sys2Proof.Machine.execTrdChk s
  | .start c => Sys2Proof.Machine.execStart c s
  | .loopchk => Sys2Proof.Machine.execLoopchk s
  | .presend => Sys2Proof.Machine.execPresend s
  | .flushResync r => Sys2Proof.Machine.execFlushResync r s
  | .retryinc => Sys2Proof.Machine.execRetryinc s
  | .sendctl => Sys2Proof.Machine.execSendctl s
  | .reject => Sys2Proof.Machine.execReject s
  | .fail => Sys2Proof.Machine.execFail s
  | .sendcan => Sys2Proof.Machine.execSendcan s
  | .finack => Sys2Proof.Machine.execFinack s
  | .awaitTo => Sys2Proof.Machine.execAwaitTo s
  | .awaitSoh => Sys2Proof.Machine.execAwaitSoh s
  | .awaitEot => Sys2Proof.Machine.execAwaitEot s
  | .awaitOther b => Sys2Proof.Machine.execAwaitOther b s
  | .blknumTo => Sys2Proof.Machine.execBlknumTo s
  | .blknumDup b => Sys2Proof.Machine.execBlknumDup b s
  | .blknumBad b => Sys2Proof.Machine.execBlknumBad b s
  | .blknumOk b => Sys2Proof.Machine.execBlknumOk b s
  | .flushDup r => Sys2Proof.Machine.execFlushDup r s
  | .flushDesync r => Sys2Proof.Machine.execFlushDesync r s
  | .invblkOk b => Sys2Proof.Machine.execInvblkOk b s
  | .invblkBad b => Sys2Proof.Machine.execInvblkBad b s
  | .invblkTo => Sys2Proof.Machine.execInvblkTo s
  | .payloadByte b => Sys2Proof.Machine.execPayloadByte b s
  | .payloadTo => Sys2Proof.Machine.execPayloadTo s
  | .cksumOk b => Sys2Proof.Machine.execCksumOk b s
  | .cksumBad b => Sys2Proof.Machine.execCksumBad b s
  | .cksumTo => Sys2Proof.Machine.execCksumTo s
  | .advance => Sys2Proof.Machine.execAdvance s
  | .soh => Sys2Proof.Machine.execSoh s
  | .eot => Sys2Proof.Machine.execEot s
  | .ack => Sys2Proof.Machine.execAck s
  | .nak => Sys2Proof.Machine.execNak s
  | .can => Sys2Proof.Machine.execCan s
  | .dataFrame blk inv data cks => Sys2Proof.Machine.execDataFrame blk inv data cks s
  | .eotFrame => Sys2Proof.Machine.execEotFrame s
  | .canSequence => Sys2Proof.Machine.execCanSequence s

end Sys2Proof.Machine
end

