-- ==== Sys2Proof/Machine/Fetch.lean ====
section
/-! DEFINITION. What a step does around an operation: whose move it is, sampling the input ports, beginning a timed
read, what selects the operation, the hardware reset; and how an instruction is put in front of the machine. -/

namespace Sys2Proof.Machine

/-- The next move: the head of `script`, or a free value once it is exhausted (log entry 2). -/
def nextEvent (s : State) : Event × State :=
  match s.script with
  | e :: es => (e, { s with script := es })
  | [] => (Config.freeEvent s.draws, { s with draws := s.draws + 1 })

/-- A rising edge of `clk`: the input ports are sampled, and `tx_valid` and the pulses of the last cycle drop unless this
cycle drives them again (R38). Log entries 16 and 22. -/
def beginCycle (inp : Inputs) (s : State) : State := { s with inp := inp, txValid := false, rxPop := false, bufWe := false }

/-- "Perform `RDT(w)`" begins with `tst <- T_ARM` (R110): in a reading state with no timed read in progress and no result
waiting. Log entry 3. -/
def beginRead (s : State) : State :=
  if reading s.st && decide (s.tst = .off) && decide (s.result = none) then { s with tst := .arm } else s

/-- The state in which a block cycle selects its operation. -/
def cycleState (inp : Inputs) (s : State) : State := beginRead (beginCycle inp s)

/-- The event the block meets: at rest the host's START (R36), elsewhere the result of the timed read; `start` while
`busy = 1` is not looked at (R145). -/
def eventOf (s : State) : OpEvent :=
  if atRest s.st then (if s.inp.start then .start s.inp.capacityIn else .quiet)
  else match s.result with
    | none => .quiet
    | some r => r.event

/-- What selects the operation of this cycle (R103). -/
def fetchWord (s : State) : OpWord := ⟨s.st.code, s.tst.code, eventOf s⟩

/-- The operation of this cycle. -/
def fetch (s : State) : Except DecodeError Instr :=
  decode s.expectedBlockNumber s.checksum (.op (fetchWord s))

/-- The byte whose `ChanWrite` is in progress: that of the three sending states (R137, R140, R141). -/
def writing (s : State) : Option Byte :=
  match s.st with
  | .sendCtrl => some s.pendingAck
  | .sendCan => some Config.can
  | .sendFinAck => some Config.ack
  | .idle | .loopCheck | .preSend | .flushResync | .retryInc | .awaitStart | .readBlknum | .flushDup | .flushDesync
  | .readInvblk | .readPayload | .readCksum | .advance | .reject | .fail | .done | .failed => none

/-- The bytes of the transmit stream after `rst`: a byte being written may or may not have gone out (R230, U7), a free
value (log entry 11). -/
def txAfterReset (s : State) : List Byte :=
  match writing s with
  | some b => if Config.freeWriteGone s.draws then s.tx ++ [b] else s.tx
  | none => s.tx

/-- Hardware reset (R230): the column "after `rst`" of R44; the buffer and the channel are not touched. -/
def hardReset (s : State) : State :=
  { State.reset with
    mem := s.mem, rx := s.rx, tx := txAfterReset s, inp := s.inp, script := s.script, draws := s.draws + 1,
    txData := s.txData, bufOff := s.bufOff, bufWdata := s.bufWdata }

/-- A wire item as the row it is. -/
def wireInstr : WireItem → Instr
  | .soh => .soh
  | .eot => .eot
  | .ack => .ack
  | .nak => .nak
  | .can => .can
  | .dataFrame blk inv data cks => .dataFrame blk inv data cks
  | .eotFrame => .eotFrame
  | .canSequence => .canSequence

/-- Items of direction "written" (opcode_table.json); the others are received. -/
def writtenItem : WireItem → Bool
  | .ack | .nak | .can | .canSequence => true
  | .soh | .eot | .dataFrame _ _ _ _ | .eotFrame => false

/-- The wire item of a wire row. -/
def wireItem? : Instr → Option WireItem
  | .soh => some .soh
  | .eot => some .eot
  | .ack => some .ack
  | .nak => some .nak
  | .can => some .can
  | .dataFrame blk inv data cks => some (.dataFrame blk inv data cks)
  | .eotFrame => some .eotFrame
  | .canSequence => some .canSequence
  | .trdArm _ | .trdPoll | .trdChk | .start _ | .loopchk | .presend | .flushResync _ | .retryinc | .sendctl | .reject
  | .fail | .sendcan | .finack | .awaitTo | .awaitSoh | .awaitEot | .awaitOther _ | .blknumTo | .blknumDup _
  | .blknumBad _ | .blknumOk _ | .flushDup _ | .flushDesync _ | .invblkOk _ | .invblkBad _ | .invblkTo | .payloadByte _
  | .payloadTo | .cksumOk _ | .cksumBad _ | .cksumTo | .advance => none

/-- A register value with which the operation's byte is in its class (R92, R93, R95). -/
def placeRegisters (i : Instr) (s : State) : State :=
  match i with
  | .blknumDup b => { s with expectedBlockNumber := b + 1#8 }
  | .blknumBad b => { s with expectedBlockNumber := b + 2#8 }
  | .blknumOk b => { s with expectedBlockNumber := b }
  | .invblkOk b => { s with expectedBlockNumber := ~~~b }
  | .invblkBad b => { s with expectedBlockNumber := b }
  | .cksumOk b => { s with checksum := b }
  | .cksumBad b => { s with checksum := ~~~b }
  | .trdArm _ | .trdPoll | .trdChk | .start _ | .loopchk | .presend | .flushResync _ | .retryinc | .sendctl | .reject
  | .fail | .sendcan | .finack | .awaitTo | .awaitSoh | .awaitEot | .awaitOther _ | .blknumTo | .flushDup _
  | .flushDesync _ | .invblkTo | .payloadByte _ | .payloadTo | .cksumTo | .advance | .soh | .eot | .ack | .nak | .can
  | .dataFrame _ _ _ _ | .eotFrame | .canSequence => s

/-- The result of a timed read an event is. -/
def OpEvent.result? : OpEvent → Option RdResult
  | .byte b => some (.byte b)
  | .timeout => some .timeout
  | .quiet | .start _ => none

/-- The input ports that carry an event: START where it is one, `rst` low. -/
def eventInputs (e : OpEvent) (s : State) : Inputs :=
  match e with
  | .start c => { s.inp with rst := false, start := true, capacityIn := c }
  | .quiet | .timeout | .byte _ => { s.inp with rst := false, start := false }

/-- Put an instruction in front of the machine so that the next step runs it: an operation's selection, or a wire item
as the next move (with the channel free, R204). Log entry 9. -/
def placeInstr (i : Instr) (s : State) : State :=
  match wireItem? i with
  | some w =>
    let s1 := if writtenItem w && busy s then { s with st := .idle, tst := .off, result := none } else s
    { s1 with script := .wire w :: s.script }
  | none =>
    match encode i with
    | .op w =>
      let s1 := placeRegisters i s
      { s1 with
        st := (St.ofCode w.st).getD .idle, tst := Tst.ofCode w.tst, result := OpEvent.result? w.event,
        script := .cycle (eventInputs w.event s) :: s.script }
    | .const _ | .frame _ => s

end Sys2Proof.Machine
end

