-- ==== Sys2Proof/Machine/Cycle.lean ====
section
/-! DEFINITION. What one move of one agent does: a cycle of the block, an arrival, a wire item, a move of the host (log
entries 1 and 2). -/

namespace Sys2Proof.Machine

/-- One cycle of the block: `rst` first (R230), then the operation the state selects; at rest without START nothing
(R144). A selection R148 does not list cannot occur (log entry 12). -/
def blockCycle (inp : Inputs) (s : State) : Host.Outcome State Fault Refusal :=
  if inp.rst then .next (hardReset (beginCycle inp s))
  else match fetch (cycleState inp s) with
    | .ok i => exec i (cycleState inp s)
    | .error .atRest => .next (cycleState inp s)
    | .error _ => .fault .unlistedSelection

/-- A move of the host on the channel or the buffer: allowed at rest only (R204); while `busy = 1` what happens is not
defined (R74, U6), and the model refuses it. Log entry 13. -/
def whileAtRest (s : State) (t : State) : Host.Outcome State Fault Refusal :=
  if busy s then .refused .exclusivityBroken else .next t

/-- One move (Event). -/
def stepEvent (e : Event) (s : State) : Host.Outcome State Fault Refusal :=
  match e with
  | .cycle inp => blockCycle inp s
  | .arrive b => .next (receive [b] s)
  | .lose k => .next { s with rx := s.rx.eraseIdx (k + 1) }
  | .wire w => if writtenItem w && busy s then .refused .exclusivityBroken else exec (wireInstr w) s
  | .hostTake => whileAtRest s { s with rx := s.rx.tail }
  | .hostRead _ => whileAtRest s s
  | .hostWrite b => whileAtRest s (transmit [b] s)
  | .hostStore off b => whileAtRest s { s with mem := Memory.write s.mem off b }

end Sys2Proof.Machine
end

