-- ==== Sys2Proof/Machine/BigStep.lean ====
section
/-! DEFINITION. The big-step view (R122) with the notation of scripts, traces and pseudo-operations (R102, R104), and
the environment operations of each operation (00_scope.md section 8). It drives the same `exec`; `step` does not use it.
Log entry 23. -/

namespace Sys2Proof.Machine

/-- One environment operation with its argument or answer (R6 to R9). -/
inductive EnvOp where
  | now (t : Word32)
  | chanPoll (r : Option Byte)
  | chanWrite (b : Byte)
  | bufWrite (off : Nat) (b : Byte)
  deriving DecidableEq, Repr

/-- A write of the block: performed in the cycle in which `tx_ready` = 1 (R38). -/
def envWrite (b : Byte) (s : State) : List EnvOp := if s.inp.txReady then [.chanWrite b] else []

/-- The environment operations of an operation of the block, in order (the entries "Environment operations" of 40, 41
and 42). The wire rows are no operations of the block and have none. -/
def envOps (i : Instr) (s : State) : List EnvOp :=
  match i with
  | .trdArm _ | .trdChk => [.now s.inp.now]
  | .trdPoll => [.chanPoll s.rx.head?]
  | .sendctl => envWrite s.pendingAck s
  | .sendcan => envWrite Config.can s
  | .finack => envWrite Config.ack s
  | .payloadByte b => [.bufWrite s.length b]
  | .start _ | .loopchk | .presend | .flushResync _ | .retryinc | .reject | .fail | .awaitTo | .awaitSoh | .awaitEot
  | .awaitOther _ | .blknumTo | .blknumDup _ | .blknumBad _ | .blknumOk _ | .flushDup _ | .flushDesync _ | .invblkOk _
  | .invblkBad _ | .invblkTo | .payloadTo | .cksumOk _ | .cksumBad _ | .cksumTo | .advance | .soh | .eot | .ack | .nak
  | .can | .dataFrame _ _ _ _ | .eotFrame | .canSequence => []

/-- An item of a trace (R102): a timed read named by the state's timeout, a byte written, a byte stored, the end of the run
(`=> OK(n)`, `=> ERR(code)`). -/
inductive TraceItem where
  | flushRead (r : RdResult)
  | longRead (r : RdResult)
  | shortRead (r : RdResult)
  | write (b : Byte)
  | store (off : Nat) (b : Byte)
  | ok (n : Nat)
  | err (code : BitVec 2)
  deriving DecidableEq, Repr

/-- The trace item of a timed read in a reading state (R90, R102). -/
def readItem (st : St) (r : RdResult) : List TraceItem :=
  match st with
  | .awaitStart => [.longRead r]
  | .readBlknum | .readInvblk | .readPayload | .readCksum => [.shortRead r]
  | .flushResync | .flushDup | .flushDesync => [.flushRead r]
  | .idle | .loopCheck | .preSend | .retryInc | .sendCtrl | .advance | .reject | .fail | .sendCan | .sendFinAck | .done
  | .failed => []

/-- The trace item of an environment operation; clock reads and polls are inside a timed read. -/
def envItem : EnvOp → List TraceItem
  | .now _ | .chanPoll _ => []
  | .chanWrite b => [.write b]
  | .bufWrite off b => [.store off b]

/-- The items a trace writes out: the store that follows each payload read is implied and is not (R102). -/
def writtenOut : TraceItem → Bool
  | .store _ _ => false
  | .flushRead _ | .longRead _ | .shortRead _ | .write _ | .ok _ | .err _ => true

/-- The item that ends the trace of a run, for the state an operation led to (R102). -/
def endItem (t : State) : List TraceItem :=
  match t.st with
  | .done => [.ok (resultLen t)]
  | .failed => [.err (lastErrorOut t)]
  | .idle | .loopCheck | .preSend | .flushResync | .retryInc | .sendCtrl | .awaitStart | .readBlknum | .flushDup
  | .flushDesync | .readInvblk | .readPayload | .readCksum | .advance | .reject | .fail | .sendCan | .sendFinAck => []

/-- The state in which a big step selects its operation: a reading state gets the whole result of its timed read at once
(R122); every write is accepted at once (95_test_vectors.md). -/
def bigState (r : RdResult) (s : State) : State :=
  let s1 := { s with inp := { s.inp with rst := false, start := false, txReady := true } }
  if reading s.st then { s1 with tst := .off, result := some r } else s1

/-- One big step: the operation selected, with the trace items it makes. At rest nothing happens (R144). -/
def bigStep (r : RdResult) (s : State) : Option (Instr × State × List TraceItem) :=
  let s1 := bigState r s
  match fetch s1 with
  | .error _ => none
  | .ok i => match exec i s1 with
    | .next t => some (i, t, readItem s.st r ++ ((envOps i s1).flatMap envItem).filter writtenOut ++ endItem t)
    | .fault _ | .refused _ => none

/-- At most `n` big steps over a script: each timed read takes the next item, and a timeout once the script is exhausted
(R102). It stops at rest. -/
def runScript : Nat → List RdResult → State → State × List TraceItem
  | 0, _, s => (s, [])
  | n + 1, script, s =>
    match bigStep (script.headD .timeout) s with
    | none => (s, [])
    | some (_, t, items) =>
      let (u, more) := runScript n (if reading s.st then script.tail else script) t
      (u, items ++ more)

/-- The bytes of a list as script items. -/
def items (bs : List Byte) : List RdResult := bs.map .byte

/-- `FILL(v)` (R104). -/
def fillData (v : Byte) : List Byte := List.replicate Config.blockSize v

/-- `RAMP` (R104). -/
def rampData : List Byte := (List.range Config.blockSize).map (BitVec.ofNat 8)

/-- `BLOCK(n, d)` (R104). -/
def blockItems (n : Nat) (d : List Byte) : List RdResult :=
  items (frameBytes (BitVec.ofNat 8 n) (inverseBlock (BitVec.ofNat 8 n)) d (sumBytes d))

/-- `BADSUM(n, d)` (R104). -/
def badsumItems (n : Nat) (d : List Byte) : List RdResult :=
  items (frameBytes (BitVec.ofNat 8 n) (inverseBlock (BitVec.ofNat 8 n)) d (sumBytes d + 1#8))

/-- `QUIET` (R104). -/
def quietItems : List RdResult := [.timeout]

/-- `END` (R104). -/
def endItems : List RdResult := items [Config.eot]

end Sys2Proof.Machine
end

