-- ==== Sys2Proof/Safety.lean ====
section
/-! DEFINITION. What every state a run reaches satisfies: the invariants of 10_state.md R22, R42, R43 and what
41_session_control.md R143 and 20_memory.md R70 say of the whole machine. -/

namespace Sys2Proof.Machine

/-- The states of an attempt and of success: entered only when the loop condition held (R42, R70, R132). -/
def headroomState : St → Bool
  | .preSend | .flushResync | .retryInc | .sendCtrl | .awaitStart | .readBlknum | .flushDup | .flushDesync | .readInvblk
  | .readPayload | .readCksum | .advance | .reject | .sendFinAck | .done => true
  | .idle | .loopCheck | .fail | .sendCan | .failed => false

/-- The states between a `SENDCTL` and the next send-control step: `pending_ack` is `NAK` there (R137). -/
def attemptState : St → Bool
  | .awaitStart | .readBlknum | .flushDup | .flushDesync | .readInvblk | .readPayload | .readCksum | .advance | .reject
  | .sendFinAck | .done => true
  | .idle | .loopCheck | .preSend | .flushResync | .retryInc | .sendCtrl | .fail | .sendCan | .failed => false

/-- The states of a failed run (R139, R140, R143). -/
def failureState : St → Bool
  | .fail | .sendCan | .failed => true
  | .idle | .loopCheck | .preSend | .flushResync | .retryInc | .sendCtrl | .awaitStart | .readBlknum | .flushDup
  | .flushDesync | .readInvblk | .readPayload | .readCksum | .advance | .reject | .sendFinAck | .done => false

/-- What `byte_index` may be in a state (R42). -/
def byteIndexOk (st : St) (bi : Nat) : Prop :=
  match st with
  | .readPayload => bi < 128
  | .readCksum | .advance => bi = 128
  | .reject => bi ≤ 128
  | .idle | .loopCheck | .preSend | .flushResync | .retryInc | .sendCtrl | .awaitStart | .readBlknum | .flushDup
  | .flushDesync | .readInvblk | .fail | .sendCan | .sendFinAck | .done | .failed => bi = 0

/-- What `can_count` may be in a state (R32, R140). -/
def canCountOk (st : St) (n : Nat) : Prop :=
  match st with
  | .sendCan => n < 3
  | .failed => n = 3
  | .idle | .loopCheck | .preSend | .flushResync | .retryInc | .sendCtrl | .awaitStart | .readBlknum | .flushDup
  | .flushDesync | .readInvblk | .readPayload | .readCksum | .advance | .reject | .fail | .sendFinAck | .done => n = 0

/-- The invariant of the machine. -/
structure State.Inv (s : State) : Prop where
  /-- a timed read is in progress only in a reading state (R22) -/
  tst_reading : s.tst ≠ .off → reading s.st = true
  /-- a result waits only in a reading state, the timed read being over (R110) -/
  result_reading : s.result ≠ none → reading s.st = true ∧ s.tst = .off
  /-- R42 -/
  byte_index : byteIndexOk s.st s.byteIndex.toNat
  /-- R42: the roll-back never goes below 0 -/
  byte_index_le : s.byteIndex.toNat ≤ s.length
  /-- R42 -/
  length_le : s.length ≤ s.capacity
  /-- R42: `length - byte_index + BLOCK_SIZE <= capacity` -/
  headroom : headroomState s.st = true → s.length - s.byteIndex.toNat + 128 ≤ s.capacity
  /-- R42 -/
  whole_blocks : 128 ∣ s.length - s.byteIndex.toNat
  /-- R43 -/
  block_number : s.expectedBlockNumber = BitVec.ofNat 8 (1 + (s.length - s.byteIndex.toNat) / 128)
  /-- R43 -/
  pending_ack : s.pendingAck = 0x06#8 ∨ s.pendingAck = 0x15#8
  /-- R137: `NAK` from the send-control step to the end of the attempt -/
  pending_nak : attemptState s.st = true ∨ s.st = .flushResync → s.pendingAck = 0x15#8
  /-- R43, R136: at most 10, or 11 when the ceiling ended the run -/
  retry_le : s.retryCount.toNat ≤ 10 ∨ (s.retryCount.toNat = 11 ∧ s.lastError = .timeout)
  /-- R136: every attempt has been counted -/
  retry_pos : attemptState s.st = true ∨ s.st = .sendCtrl → 1 ≤ s.retryCount.toNat
  /-- R29, R43: `last_error` is set in a failed run only -/
  error_failure : s.lastError ≠ .none → failureState s.st = true
  /-- R143: `ERR_TIMEOUT` means the ceiling was exceeded -/
  error_timeout : s.lastError = .timeout → s.retryCount.toNat = 11
  /-- R143: a failure without a code is `BUFFER_FULL` -/
  buffer_full : failureState s.st = true → s.lastError = .none → s.capacity < s.length + 128
  /-- R32, R140 -/
  can_count : canCountOk s.st s.canCount.toNat
  /-- R7, R38: a byte offered and not accepted is the one the block still has to write -/
  tx_port : s.txValid = true → s.inp.txReady = false → writing s = some s.txData
  /-- R63: a byte offered is `ACK`, `NAK` or `CAN` -/
  tx_byte : s.txValid = true → s.txData = 0x06#8 ∨ s.txData = 0x15#8 ∨ s.txData = 0x18#8
  /-- the buffer's canonical form -/
  mem_wf : Memory.wf s.mem = true

/-- Where `st` can go in one block cycle without `rst`: the arrows of R148, and the state itself while a timed read or a
write is in progress or the block is at rest. -/
def successors : St → List St
  | .idle => [.idle, .loopCheck]
  | .loopCheck => [.preSend, .fail]
  | .preSend => [.retryInc, .flushResync]
  | .flushResync => [.flushResync, .retryInc]
  | .retryInc => [.sendCtrl, .fail]
  | .sendCtrl => [.sendCtrl, .awaitStart]
  | .awaitStart => [.awaitStart, .reject, .readBlknum, .sendFinAck]
  | .readBlknum => [.readBlknum, .reject, .flushDup, .flushDesync, .readInvblk]
  | .flushDup => [.flushDup, .loopCheck]
  | .flushDesync => [.flushDesync, .fail]
  | .readInvblk => [.readInvblk, .readPayload, .reject]
  | .readPayload => [.readPayload, .reject, .readCksum]
  | .readCksum => [.readCksum, .advance, .reject]
  | .advance => [.loopCheck]
  | .reject => [.loopCheck]
  | .fail => [.sendCan]
  | .sendCan => [.sendCan, .failed]
  | .sendFinAck => [.sendFinAck, .done]
  | .done => [.done, .loopCheck]
  | .failed => [.failed, .loopCheck]

/-- The state with another clock value on the port `now`. -/
def State.atTime (s : State) (t : Word32) : State := { s with inp := { s.inp with now := t } }

/-- `n` steps, stopping at the first fault or refusal. -/
def run : Nat → State → Result
  | 0, s => .next s
  | n + 1, s => match step s with
    | .next t => run n t
    | .fault r => .fault r
    | .refused r => .refused r

end Sys2Proof.Machine
end

