-- ==== Sys2Proof/Certificates/Slice0/Obligations.lean ====
section
/-! DEFINITION. The statements about the model, for the provers. An operation's statement says what selects it (`fetch`)
and the whole next state (`exec`); every field not named in a next state is unchanged, so it is its frame too. `result` is
the variable of R112 and R113; that the operation it selects consumes it is R45. The pulses and the write port are R38. -/

open Sys2Proof Sys2Proof.Machine

/-! ## Timed read (40_timed_read.md) -/

/-- R90: the timeout operand of each reading state, and that no other state has one. -/
def Obligations.TimeoutOperandIsFixedByTheReadingState : Prop :=
  St.timeout .awaitStart = some 3000000#32 ∧
  (∀ st ∈ [St.readBlknum, .readInvblk, .readPayload, .readCksum, .flushResync, .flushDup, .flushDesync],
    st.timeout = some 250000#32) ∧
  ∀ st, st.timeout ≠ none →
    st ∈ [St.awaitStart, .readBlknum, .readInvblk, .readPayload, .readCksum, .flushResync, .flushDup, .flushDesync]

/-- R111: `TRD.ARM`. -/
def Obligations.TrdArmReadsTheClockAndFormsTheDeadline : Prop :=
  (∀ (s : State) (w : Word32), s.tst = .arm → s.st.timeout = some w → fetch s = .ok (.trdArm w)) ∧
  ∀ (s : State) (w : Word32),
    exec (.trdArm w) s = .next { s with deadline := s.inp.now + w, tst := .poll } ∧
    envOps (.trdArm w) s = [.now s.inp.now]

/-- R112: `TRD.POLL`; `rx_pop` is the port of R38. -/
def Obligations.TrdPollTakesTheOldestByteOrNothing : Prop :=
  (∀ s : State, s.tst = .poll → fetch s = .ok .trdPoll) ∧
  (∀ (s : State) (b : Byte) (rest : List Byte), s.rx = b :: rest →
    exec .trdPoll s = .next { s with rx := rest, rxPop := true, result := some (.byte b), tst := .off } ∧
    envOps .trdPoll s = [.chanPoll (some b)]) ∧
  ∀ s : State, s.rx = [] →
    exec .trdPoll s = .next { s with tst := .chk } ∧ envOps .trdPoll s = [.chanPoll none]

/-- R113: `TRD.CHK`, with the signed reading of bit 31. -/
def Obligations.TrdChkTestsTheSignedDifference : Prop :=
  (∀ s : State, s.tst = .chk → fetch s = .ok .trdChk) ∧
  (∀ s : State, exec .trdChk s =
    .next (if 0 ≤ (s.inp.now - s.deadline).toInt then { s with result := some .timeout, tst := .off }
      else { s with tst := .poll })) ∧
  (∀ s : State, envOps .trdChk s = [.now s.inp.now]) ∧
  ∀ d : Word32, 0 ≤ d.toInt ↔ d.getLsbD 31 = false

/-- R13, R113, R119, R120: armed at `t0` with `w ≤ 2^31`, a check `e` microseconds later reports the timeout exactly when
`e ≥ w`, whatever the clock wraps through, as long as the sample is less than `2^31` microseconds late. -/
def Obligations.TimeoutIsReportedExactlyFromTheDeadlineOn : Prop :=
  ∀ (s : State) (w t0 e : Word32), w.toNat ≤ 2 ^ 31 → e.toNat < w.toNat + 2 ^ 31 →
    ∃ a, exec (.trdArm w) (s.atTime t0) = .next a ∧
      exec .trdChk (a.atTime (t0 + e)) =
        .next (if w.toNat ≤ e.toNat then { a.atTime (t0 + e) with result := some .timeout, tst := .off }
          else { a.atTime (t0 + e) with tst := .poll })

/-- R119, R241: a timeout above `2^31` expires at the first check; a sample `2^31` or more late reads as not expired. -/
def Obligations.TimeoutsBeyondHalfTheClockRangeAreMisread : Prop :=
  (∀ (s : State) (w t0 : Word32), 2 ^ 31 < w.toNat →
    ∃ a, exec (.trdArm w) (s.atTime t0) = .next a ∧
      exec .trdChk (a.atTime t0) = .next { a.atTime t0 with result := some .timeout, tst := .off }) ∧
  ∀ (s : State) (w t0 e : Word32), w.toNat + 2 ^ 31 ≤ e.toNat →
    ∃ a, exec (.trdArm w) (s.atTime t0) = .next a ∧
      exec .trdChk (a.atTime (t0 + e)) = .next { a.atTime (t0 + e) with tst := .poll }

/-- R110, R118: in a reading state with no timed read in progress and no result waiting, the block cycle runs `TRD.ARM`
with the state's timeout: a timed read begins, and a flush reads again after each byte. That one cycle does both is log entries 1 and 3. -/
def Obligations.ReadingStateBeginsItsTimedRead : Prop :=
  ∀ (s : State) (inp : Inputs) (es : List Event) (w : Word32), s.st.timeout = some w → s.tst = .off → s.result = none →
    s.script = .cycle inp :: es → inp.rst = false →
    step s = .next { s with
      deadline := inp.now + w, tst := .poll, inp := inp, txValid := false, rxPop := false, bufWe := false, script := es }

/-- R114: the channel is polled before the deadline is tested: a waiting byte is returned whatever the clock says. The two
operations, arm and poll, are two block cycles by the model's choice (log entry 1); that the first of them also begins the
timed read, and that the byte then waits in `result`, is log entry 3. -/
def Obligations.WaitingByteWinsOverTheDeadline : Prop :=
  ∀ (s : State) (w : Word32) (b : Byte) (rest : List Byte) (i1 i2 : Inputs) (es : List Event),
    s.st.timeout = some w → s.tst = .off → s.result = none → s.rx = b :: rest →
    s.script = .cycle i1 :: .cycle i2 :: es → i1.rst = false → i2.rst = false →
    run 2 s = .next { s with
      deadline := i1.now + w, rx := rest, txValid := false, rxPop := true, bufWe := false, result := some (.byte b), tst := .off,
      inp := i2, script := es }

/-- R110: one round of a timed read on a quiet channel: arm, poll, check. The three operations are three block cycles by
the model's choice (log entry 1); that the first of them also begins the timed read, and that a timeout then waits in
`result`, is log entry 3. -/
def Obligations.QuietTimedReadPollsOnceThenChecks : Prop :=
  ∀ (s : State) (w : Word32) (i1 i2 i3 : Inputs) (es : List Event),
    s.st.timeout = some w → s.tst = .off → s.result = none → s.rx = [] →
    s.script = .cycle i1 :: .cycle i2 :: .cycle i3 :: es → i1.rst = false → i2.rst = false → i3.rst = false →
    run 3 s = .next { s with
      deadline := i1.now + w, txValid := false, rxPop := false, bufWe := false, inp := i3, script := es,
      result := if 0 ≤ (i3.now - (i1.now + w)).toInt then some .timeout else none,
      tst := if 0 ≤ (i3.now - (i1.now + w)).toInt then .off else .poll }

/-- R134, R166, R168: the three flushes. A byte is discarded and nothing else changes; the timeout ends the flush. -/
def Obligations.FlushesDiscardBytesAndEndOnTheTimeout : Prop :=
  (∀ (s : State) (r : RdResult), s.tst = .off → s.result = some r →
    (s.st = .flushResync → fetch s = .ok (.flushResync r)) ∧
    (s.st = .flushDup → fetch s = .ok (.flushDup r)) ∧
    (s.st = .flushDesync → fetch s = .ok (.flushDesync r))) ∧
  (∀ (s : State) (b : Byte),
    exec (.flushResync (.byte b)) s = .next { s with result := none } ∧
    exec (.flushDup (.byte b)) s = .next { s with result := none } ∧
    exec (.flushDesync (.byte b)) s = .next { s with result := none }) ∧
  ∀ s : State,
    exec (.flushResync .timeout) s = .next { s with result := none, st := .retryInc } ∧
    exec (.flushDup .timeout) s = .next { s with result := none, pendingAck := 0x06#8, st := .loopCheck } ∧
    exec (.flushDesync .timeout) s = .next { s with result := none, lastError := .block, st := .fail }

/-! ## Session control (41_session_control.md) -/

/-- R130, R145: `START` at rest writes every register but `deadline`; while busy it is ignored. -/
def Obligations.StartInitialisesTheSession : Prop :=
  (∀ s : State, busy s = false → s.tst = .off → s.inp.start = true → fetch s = .ok (.start s.inp.capacityIn)) ∧
  (∀ (s : State) (c : Nat), busy s = false →
    exec (.start c) s = .next { s with
      capacity := c, length := 0, expectedBlockNumber := 1#8, retryCount := 0#4, pendingAck := 0x15#8,
      lastError := .none, checksum := 0#8, byteIndex := 0#8, canCount := 0#2, tst := .off, result := none,
      st := .loopCheck }) ∧
  ∀ (s : State) (c : Nat), busy s = true → exec (.start c) s = .next s

/-- R144: at rest without START only the input ports are sampled, and `tx_valid` and the pulses drop (R38). -/
def Obligations.RestingBlockChangesNothing : Prop :=
  ∀ (s : State) (inp : Inputs) (es : List Event), busy s = false → s.tst = .off → s.script = .cycle inp :: es →
    inp.rst = false → inp.start = false →
    step s = .next { s with inp := inp, txValid := false, rxPop := false, bufWe := false, script := es }

/-- R145: while busy, `start` and `capacity_in` change nothing but what the ports show. -/
def Obligations.StartWhileBusyIsIgnored : Prop :=
  ∀ (s : State) (inp : Inputs) (es : List Event) (x : Bool) (c : Nat), busy s = true →
    ∀ t, step { s with script := .cycle inp :: es } = .next t →
      step { s with script := .cycle { inp with start := x, capacityIn := c } :: es } =
        .next { t with inp := { inp with start := x, capacityIn := c } }

/-- R132, R17: `LOOPCHK`; a false condition leaves `last_error` as it is. -/
def Obligations.LoopchkTestsTheHeadroom : Prop :=
  (∀ s : State, s.st = .loopCheck → s.tst = .off → s.result = none → fetch s = .ok .loopchk) ∧
  (∀ s : State, s.length + 128 ≤ s.capacity → exec .loopchk s = .next { s with st := .preSend }) ∧
  ∀ s : State, s.capacity < s.length + 128 → exec .loopchk s = .next { s with st := .fail }

/-- R133: `PRESEND`. -/
def Obligations.PresendResetsTheCounterOrFlushes : Prop :=
  (∀ s : State, s.st = .preSend → s.tst = .off → s.result = none → fetch s = .ok .presend) ∧
  (∀ s : State, s.pendingAck = 0x06#8 → exec .presend s = .next { s with retryCount := 0#4, st := .retryInc }) ∧
  ∀ s : State, s.pendingAck ≠ 0x06#8 → exec .presend s = .next { s with st := .flushResync }

/-- R136: `RETRYINC`; the value 11 is the terminal fault F1. At 15, which no run reaches, the sum is mathematical (R15) and
the 4 bits stored are 0: log entry 5. -/
def Obligations.RetryincCountsAndTestsTheCeiling : Prop :=
  (∀ s : State, s.st = .retryInc → s.tst = .off → s.result = none → fetch s = .ok .retryinc) ∧
  (∀ s : State, s.retryCount.toNat < 10 →
    exec .retryinc s = .next { s with retryCount := s.retryCount + 1#4, st := .sendCtrl }) ∧
  ∀ s : State, 10 ≤ s.retryCount.toNat →
    exec .retryinc s = .next { s with retryCount := s.retryCount + 1#4, lastError := .timeout, st := .fail }

/-- R137, R7: `SENDCTL`, with the write accepted and with the write waiting (R7, R38; the write port in each
case is log entry 16). -/
def Obligations.SendctlWritesThePendingByte : Prop :=
  (∀ s : State, s.st = .sendCtrl → s.tst = .off → s.result = none → fetch s = .ok .sendctl) ∧
  (∀ s : State, s.inp.txReady = true →
    exec .sendctl s = .next { s with
      tx := s.tx ++ [s.pendingAck], txValid := true, txData := s.pendingAck, pendingAck := 0x15#8, st := .awaitStart } ∧
    envOps .sendctl s = [.chanWrite s.pendingAck]) ∧
  ∀ s : State, s.inp.txReady = false →
    exec .sendctl s = .next { s with txValid := true, txData := s.pendingAck } ∧ envOps .sendctl s = []

/-- R138: `REJECT`, where `byte_index` does not exceed `length` (R42). -/
def Obligations.RejectRollsTheLengthBack : Prop :=
  (∀ s : State, s.st = .reject → s.tst = .off → s.result = none → fetch s = .ok .reject) ∧
  ∀ (s : State) (n : Nat), n + s.byteIndex.toNat = s.length →
    exec .reject s = .next { s with length := n, byteIndex := 0#8, st := .loopCheck }

/-- R139: `FAIL`. -/
def Obligations.FailBeginsTheCancelSequence : Prop :=
  (∀ s : State, s.st = .fail → s.tst = .off → s.result = none → fetch s = .ok .fail) ∧
  ∀ s : State, exec .fail s = .next { s with canCount := 0#2, st := .sendCan }

/-- R140: `SENDCAN`, with the write accepted and with the write waiting (R7, R38; the write port in each
case is log entry 16). -/
def Obligations.SendcanWritesCanAndCounts : Prop :=
  (∀ s : State, s.st = .sendCan → s.tst = .off → s.result = none → fetch s = .ok .sendcan) ∧
  (∀ s : State, s.inp.txReady = true →
    exec .sendcan s = .next { s with
      tx := s.tx ++ [0x18#8], txValid := true, txData := 0x18#8, canCount := s.canCount + 1#2,
      st := if s.canCount + 1#2 = 3#2 then .failed else .sendCan } ∧
    envOps .sendcan s = [.chanWrite 0x18#8]) ∧
  ∀ s : State, s.inp.txReady = false →
    exec .sendcan s = .next { s with txValid := true, txData := 0x18#8 } ∧ envOps .sendcan s = []

/-- R141: `FINACK`, with the write accepted and with the write waiting (R7, R38; the write port in each
case is log entry 16). -/
def Obligations.FinackAcknowledgesAndSucceeds : Prop :=
  (∀ s : State, s.st = .sendFinAck → s.tst = .off → s.result = none → fetch s = .ok .finack) ∧
  (∀ s : State, s.inp.txReady = true →
    exec .finack s = .next { s with
      tx := s.tx ++ [0x06#8], txValid := true, txData := 0x06#8, lastError := .none, st := .done } ∧
    envOps .finack s = [.chanWrite 0x06#8]) ∧
  ∀ s : State, s.inp.txReady = false →
    exec .finack s = .next { s with txValid := true, txData := 0x06#8 } ∧ envOps .finack s = []

/-! ## Frame parser (42_frame_parser.md) -/

/-- R91, R160 to R163: the frame classifier. -/
def Obligations.FrameClassifier : Prop :=
  (∀ (s : State) (r : RdResult), s.st = .awaitStart → s.tst = .off → s.result = some r →
    fetch s = .ok (match r with
      | .timeout => .awaitTo
      | .byte b => if b = 0x01#8 then .awaitSoh else if b = 0x04#8 then .awaitEot else .awaitOther b)) ∧
  ∀ s : State,
    exec .awaitTo s = .next { s with result := none, st := .reject } ∧
    exec .awaitSoh s = .next { s with result := none, st := .readBlknum } ∧
    exec .awaitEot s = .next { s with result := none, st := .sendFinAck } ∧
    ∀ b, exec (.awaitOther b) s = .next { s with result := none, st := .reject }

/-- R92, R164, R165, R167, R169: the block-number validator. -/
def Obligations.BlockNumberValidator : Prop :=
  (∀ (s : State) (r : RdResult), s.st = .readBlknum → s.tst = .off → s.result = some r →
    (r = .timeout → fetch s = .ok .blknumTo) ∧
    ∀ b, r = .byte b →
      (b.toNat = (s.expectedBlockNumber.toNat + 255) % 256 → fetch s = .ok (.blknumDup b)) ∧
      (b.toNat ≠ (s.expectedBlockNumber.toNat + 255) % 256 → b ≠ s.expectedBlockNumber → fetch s = .ok (.blknumBad b)) ∧
      (b = s.expectedBlockNumber → fetch s = .ok (.blknumOk b))) ∧
  ∀ s : State,
    exec .blknumTo s = .next { s with result := none, st := .reject } ∧
    ∀ b, exec (.blknumDup b) s = .next { s with result := none, st := .flushDup } ∧
      exec (.blknumBad b) s = .next { s with result := none, st := .flushDesync } ∧
      exec (.blknumOk b) s = .next { s with result := none, st := .readInvblk }

/-- R93, R170 to R172: the inverse check, against the complement of the register. -/
def Obligations.InverseBlockNumberCheck : Prop :=
  (∀ (s : State) (r : RdResult), s.st = .readInvblk → s.tst = .off → s.result = some r →
    (r = .timeout → fetch s = .ok .invblkTo) ∧
    ∀ b, r = .byte b →
      (b.toNat = 255 - s.expectedBlockNumber.toNat → fetch s = .ok (.invblkOk b)) ∧
      (b.toNat ≠ 255 - s.expectedBlockNumber.toNat → fetch s = .ok (.invblkBad b))) ∧
  ∀ s : State,
    exec .invblkTo s = .next { s with result := none, st := .reject } ∧
    ∀ b, exec (.invblkOk b) s = .next { s with result := none, byteIndex := 0#8, checksum := 0#8, st := .readPayload } ∧
      exec (.invblkBad b) s = .next { s with result := none, st := .reject }

/-- R174: `PAYLOAD.BYTE`: the byte goes to offset `length` and nowhere else. -/
def Obligations.PayloadByteIsStoredAndSummed : Prop :=
  (∀ (s : State) (b : Byte), s.st = .readPayload → s.tst = .off → s.result = some (.byte b) →
    fetch s = .ok (.payloadByte b)) ∧
  ∀ (s : State) (b : Byte), ∃ m : Memory,
    exec (.payloadByte b) s = .next { s with
      result := none, mem := m, bufWe := true, bufOff := s.length, bufWdata := b, length := s.length + 1,
      checksum := s.checksum + b, byteIndex := s.byteIndex + 1#8,
      st := if s.byteIndex + 1#8 = 128#8 then .readCksum else .readPayload } ∧
    envOps (.payloadByte b) s = [.bufWrite s.length b] ∧
    Memory.read m s.length = some b ∧ ∀ a, a ≠ s.length → Memory.read m a = Memory.read s.mem a

/-- R173: `PAYLOAD.TO`: the attempt is abandoned; the roll-back is `REJECT`'s. -/
def Obligations.PayloadTimeoutRejects : Prop :=
  (∀ s : State, s.st = .readPayload → s.tst = .off → s.result = some .timeout → fetch s = .ok .payloadTo) ∧
  ∀ s : State, exec .payloadTo s = .next { s with result := none, st := .reject }

/-- R95, R175 to R177: the checksum check. -/
def Obligations.ChecksumCheck : Prop :=
  (∀ (s : State) (r : RdResult), s.st = .readCksum → s.tst = .off → s.result = some r →
    fetch s = .ok (match r with
      | .timeout => .cksumTo
      | .byte b => if b = s.checksum then .cksumOk b else .cksumBad b)) ∧
  ∀ s : State,
    exec .cksumTo s = .next { s with result := none, st := .reject } ∧
    ∀ b, exec (.cksumOk b) s = .next { s with result := none, st := .advance } ∧
      exec (.cksumBad b) s = .next { s with result := none, st := .reject }

/-- R178: `ADVANCE`. -/
def Obligations.AdvanceCommitsTheBlock : Prop :=
  (∀ s : State, s.st = .advance → s.tst = .off → s.result = none → fetch s = .ok .advance) ∧
  ∀ s : State, ∃ n : Byte, n.toNat = (s.expectedBlockNumber.toNat + 1) % 256 ∧
    exec .advance s = .next { s with
      pendingAck := 0x06#8, expectedBlockNumber := n, byteIndex := 0#8, st := .loopCheck }

/-- R11, R12, R179: block-number arithmetic. -/
def Obligations.BlockNumberArithmetic : Prop :=
  ∀ n : Byte, (nextBlock n).toNat = (n.toNat + 1) % 256 ∧ (prevBlock n).toNat = (n.toNat + 255) % 256 ∧
    (inverseBlock n).toNat = 255 - n.toNat ∧ prevBlock n ≠ n

/-! ## Wire items (30_encoding.md section 1) -/

/-- R62, R80 to R82: a received item joins the receive stream behind what waits there, and nothing else changes. That
the row is the item's arrival is the model's choice (log entry 7). -/
def Obligations.ReceivedItemsJoinTheReceiveStream : Prop :=
  ∀ s : State,
    exec .soh s = .next { s with rx := s.rx ++ [0x01#8] } ∧
    exec .eot s = .next { s with rx := s.rx ++ [0x04#8] } ∧
    exec .eotFrame s = .next { s with rx := s.rx ++ [0x04#8] } ∧
    ∀ (blk inv : Byte) (data : List Byte) (cks : Byte),
      exec (.dataFrame blk inv data cks) s = .next { s with rx := s.rx ++ ([0x01#8, blk, inv] ++ data ++ [cks]) }

/-- R63, R83, R84: a written item joins the transmit stream behind what was written, and nothing else changes. That the
row is the item's passage is the model's choice (log entry 7). -/
def Obligations.WrittenItemsJoinTheTransmitStream : Prop :=
  ∀ s : State,
    exec .ack s = .next { s with tx := s.tx ++ [0x06#8] } ∧
    exec .nak s = .next { s with tx := s.tx ++ [0x15#8] } ∧
    exec .can s = .next { s with tx := s.tx ++ [0x18#8] } ∧
    exec .canSequence s = .next { s with tx := s.tx ++ [0x18#8, 0x18#8, 0x18#8] }

/-! ## The step -/

/-- A block cycle without `rst` runs exactly the operation its selection decodes to, in the state with the ports sampled,
`tx_valid` and the pulses dropped and, where one is due, the timed read begun (R103, R110; log entries 1 and 3). -/
def Obligations.BlockCycleRunsTheSelectedOperation : Prop :=
  ∀ (s : State) (inp : Inputs) (es : List Event) (i : Instr), s.script = .cycle inp :: es → inp.rst = false →
    let u := { s with
      script := es, inp := inp, txValid := false, rxPop := false, bufWe := false,
      tst := if reading s.st = true ∧ s.tst = .off ∧ s.result = none then .arm else s.tst }
    decode u.expectedBlockNumber u.checksum (.op ⟨u.st.code, u.tst.code, eventOf u⟩) = .ok i → step s = exec i u

/-- A wire item that is the next move is run as its row; a written one needs the channel to be free (R204, log entries 2, 7
and 13). -/
def Obligations.WireMoveRunsItsRow : Prop :=
  ∀ (s : State) (w : WireItem) (es : List Event), s.script = .wire w :: es →
    (writtenItem w = false ∨ busy s = false → step s = exec (wireInstr w) { s with script := es }) ∧
    (writtenItem w = true → busy s = true → step s = .refused .exclusivityBroken)

/-- R62, D14: an arriving byte joins the channel's queue; a byte the channel loses is gone from it and is never the one
presented to the block; where no byte waits behind that one, nothing is lost. The block does not move (log entries 2 and
18). -/
def Obligations.ChannelMovesChangeTheQueueOnly : Prop :=
  ∀ (s : State) (es : List Event),
    (∀ b, s.script = .arrive b :: es → step s = .next { s with rx := s.rx ++ [b], script := es }) ∧
    (∀ shown older b newer, s.rx = shown :: older ++ b :: newer → s.script = .lose older.length :: es →
      step s = .next { s with rx := shown :: older ++ newer, script := es }) ∧
    ∀ k, s.rx.length ≤ k + 1 → s.script = .lose k :: es → step s = .next { s with script := es }

/-- R74, R204: the host's moves on the channel and the buffer happen at rest; while busy they break the contract and the
model refuses (U6, log entry 13). A read changes nothing. -/
def Obligations.HostMovesHappenAtRestOnly : Prop :=
  (∀ (s : State) (es : List Event), busy s = false →
    (s.script = .hostTake :: es → step s = .next { s with rx := s.rx.tail, script := es }) ∧
    (∀ off, s.script = .hostRead off :: es → step s = .next { s with script := es }) ∧
    (∀ b, s.script = .hostWrite b :: es → step s = .next { s with tx := s.tx ++ [b], script := es }) ∧
    ∀ off b, s.script = .hostStore off b :: es →
      ∃ m : Memory, step s = .next { s with mem := m, script := es } ∧
        Memory.read m off = some b ∧ ∀ a, a ≠ off → Memory.read m a = Memory.read s.mem a) ∧
  ∀ (s : State) (es : List Event), busy s = true →
    (s.script = .hostTake :: es ∨ (∃ off, s.script = .hostRead off :: es) ∨ (∃ b, s.script = .hostWrite b :: es) ∨
      ∃ off b, s.script = .hostStore off b :: es) →
    step s = .refused .exclusivityBroken

/-- R230: `rst` in any state. The buffer and the receive queue are not touched; the transmit stream gains at most the byte
being written (U7). -/
def Obligations.HardwareResetForcesIdle : Prop :=
  ∀ (s : State) (inp : Inputs) (es : List Event), s.script = .cycle inp :: es → inp.rst = true →
    ∃ t, step s = .next t ∧
      t.st = .idle ∧ t.tst = .off ∧ t.length = 0 ∧ t.expectedBlockNumber = 1#8 ∧ t.retryCount = 0#4 ∧
      t.pendingAck = 0x15#8 ∧ t.lastError = .none ∧ t.checksum = 0#8 ∧ t.byteIndex = 0#8 ∧ t.deadline = 0#32 ∧
      t.canCount = 0#2 ∧ t.capacity = 0 ∧ t.txValid = false ∧ t.rxPop = false ∧ t.bufWe = false ∧
      busy t = false ∧ done t = false ∧ ok t = false ∧
      t.mem = s.mem ∧ t.rx = s.rx ∧ (t.tx = s.tx ∨ ∃ b, writing s = some b ∧ t.tx = s.tx ++ [b]) ∧
      t.inp = inp ∧ t.script = es

/-- R44: the values after reset. -/
def Obligations.ResetValues : Prop :=
  State.reset.st = .idle ∧ State.reset.tst = .off ∧ State.reset.length = 0 ∧ State.reset.expectedBlockNumber = 1#8 ∧
  State.reset.retryCount = 0#4 ∧ State.reset.pendingAck = 0x15#8 ∧ State.reset.lastError = .none ∧
  State.reset.checksum = 0#8 ∧ State.reset.byteIndex = 0#8 ∧ State.reset.deadline = 0#32 ∧
  State.reset.canCount = 0#2 ∧ State.reset.capacity = 0 ∧ State.reset.txValid = false ∧ State.reset.rxPop = false ∧
  State.reset.bufWe = false ∧ busy State.reset = false ∧ done State.reset = false ∧ ok State.reset = false

/-- R35, R37: the flags and the result outputs. -/
def Obligations.StatusFlagsAndResult : Prop :=
  ∀ s : State,
    (busy s = true ↔ s.st ≠ .idle ∧ s.st ≠ .done ∧ s.st ≠ .failed) ∧
    (done s = true ↔ s.st = .done ∨ s.st = .failed) ∧ (ok s = true ↔ s.st = .done) ∧
    resultLen s = s.length ∧
    lastErrorOut s = (match s.lastError with | .none => 0#2 | .timeout => 1#2 | .block => 2#2)

/-! ## The machine as a whole -/

/-- The invariant holds after reset. -/
def Obligations.ResetMeetsTheInvariant : Prop := State.reset.Inv

/-- R22, R42, R43, R70, R143: the invariant is kept by every step, whoever moves. -/
def Obligations.EveryStepKeepsTheInvariant : Prop :=
  ∀ s t : State, s.Inv → step s = .next t → t.Inv

/-- R98, R148: from a state that meets the invariant no step faults, and none is refused but a move of another agent that
breaks the exclusivity of a run (U6, log entry 13): a block cycle, an arrival, a loss and a received wire item always
answer a next state; a move of the host and a written wire item that is not the block's do at rest. -/
def Obligations.InvariantStatesNeverStop : Prop :=
  ∀ s : State, s.Inv →
    match (nextEvent s).1 with
    | .cycle _ | .arrive _ | .lose _ => ∃ t, step s = .next t
    | .wire w =>
      (writtenItem w = false ∨ busy s = false → ∃ t, step s = .next t) ∧
      (writtenItem w = true → busy s = true → step s = .refused .exclusivityBroken)
    | .hostTake | .hostRead _ | .hostWrite _ | .hostStore _ _ =>
      (busy s = false → ∃ t, step s = .next t) ∧ (busy s = true → step s = .refused .exclusivityBroken)

/-- R98: every byte and the timeout have an operation in every reading state, one that fits its class, and it runs. -/
def Obligations.EveryOutcomeHasAnOperation : Prop :=
  ∀ (s : State) (r : RdResult), reading s.st = true → s.tst = .off → s.result = some r →
    ∃ i t, fetch s = .ok i ∧ i.wf = true ∧ i.agrees s.expectedBlockNumber s.checksum = true ∧ exec i s = .next t ∧
      t.result = none

/-- R98, R190: no operation stops: taking a fault is a next state. -/
def Obligations.EveryInstructionRuns : Prop := ∀ (i : Instr) (s : State), ∃ t, exec i s = .next t

/-- R148: a block cycle without `rst` follows an arrow of the table; no other move changes `st`. -/
def Obligations.ControlFollowsTheTransitionTable : Prop :=
  ∀ s t : State, s.Inv → step s = .next t →
    match (nextEvent s).1 with
    | .cycle inp => inp.rst = false → t.st ∈ successors s.st
    | _ => t.st = s.st

/-- R70: a block cycle from a state that meets the invariant stores, if it does, below `128 * floor(capacity / 128)`, and
every offset from there on reads as before; the offset a payload byte will go to is below it; and a successful result is
at most `128 * (floor(capacity / 128) - 1)`. -/
def Obligations.StoresAndResultsStayInTheHeadroom : Prop :=
  (∀ (s t : State) (inp : Inputs), s.Inv → (nextEvent s).1 = .cycle inp → step s = .next t →
    (t.bufWe = true → t.bufOff < 128 * (t.capacity / 128)) ∧
    ∀ a, 128 * (s.capacity / 128) ≤ a → Memory.read t.mem a = Memory.read s.mem a) ∧
  (∀ s : State, s.Inv → s.st = .readPayload → s.length < 128 * (s.capacity / 128)) ∧
  ∀ s : State, s.Inv → s.st = .done → 128 ∣ resultLen s ∧ resultLen s ≤ 128 * (s.capacity / 128 - 1)

/-- R143: how each kind of failure shows. -/
def Obligations.FailureKindsAreToldApart : Prop :=
  ∀ s : State, s.Inv → s.st = .failed →
    (lastErrorOut s = 0#2 → s.capacity < s.length + 128) ∧
    (lastErrorOut s = 1#2 ↔ s.retryCount.toNat = 11) ∧ lastErrorOut s ≠ 3#2 ∧ 128 ∣ s.length ∧ s.canCount.toNat = 3

/-- R26, R133, R136: `retry_count` is set back to 0 or rises by one, the latter in `RETRY_INC` only. -/
def Obligations.RetryCountRisesOnlyInRetryInc : Prop :=
  ∀ s t : State, step s = .next t →
    t.retryCount = s.retryCount ∨ t.retryCount = 0#4 ∨ (s.st = .retryInc ∧ t.retryCount = s.retryCount + 1#4)

/-- R199: the entry of a retry, from `REJECT` to the opening flush of the next attempt: three operations, which are three
block cycles by the model's choice (log entry 1). -/
def Obligations.RetryEntryRollsBackAndFlushes : Prop :=
  ∀ (s : State) (i1 i2 i3 : Inputs) (es : List Event), s.Inv → s.st = .reject →
    s.script = .cycle i1 :: .cycle i2 :: .cycle i3 :: es → i1.rst = false → i2.rst = false → i3.rst = false →
    run 3 s = .next { s with
      length := s.length - s.byteIndex.toNat, byteIndex := 0#8, st := .flushResync, inp := i3, txValid := false,
      rxPop := false, bufWe := false, script := es }

/-- R200, R84: the entry of a terminal failure with every write accepted: three `CAN` bytes and nothing between them. Four
operations are four block cycles by the model's choice (log entry 1); what the write port shows at the end is log entry
16. -/
def Obligations.TerminalEntrySendsThreeCan : Prop :=
  ∀ (s : State) (i1 i2 i3 i4 : Inputs) (es : List Event), s.Inv → s.st = .fail →
    s.script = .cycle i1 :: .cycle i2 :: .cycle i3 :: .cycle i4 :: es →
    i1.rst = false → i2.rst = false → i3.rst = false → i4.rst = false →
    i2.txReady = true → i3.txReady = true → i4.txReady = true →
    run 4 s = .next { s with
      tx := s.tx ++ [0x18#8, 0x18#8, 0x18#8], txValid := true, txData := 0x18#8, canCount := 3#2, st := .failed,
      inp := i4, rxPop := false, bufWe := false, script := es }

/-- R62, R63: both streams keep their order: the receive queue loses at most one byte (the oldest, unless the channel
itself loses one behind it) and grows at its end, the transmit stream grows at its end. -/
def Obligations.StreamsKeepTheirOrder : Prop :=
  ∀ s t : State, step s = .next t →
    ((∃ n ≤ 1, ∃ bs, t.rx = s.rx.drop n ++ bs) ∨ ∃ k, (nextEvent s).1 = .lose k ∧ t.rx = s.rx.eraseIdx (k + 1)) ∧
    ∃ bs, t.tx = s.tx ++ bs

/-- R60, R73: an operation changes the streams and the buffer by its environment operations and in no other way. -/
def Obligations.EnvironmentOperationsAccountForTheStreams : Prop :=
  ∀ (i : Instr) (s t : State), wireItem? i = none → exec i s = .next t →
    t.tx = s.tx ++ (envOps i s).filterMap (fun | .chanWrite b => some b | _ => none) ∧
    t.rx = s.rx.drop ((envOps i s).countP (fun | .chanPoll (some _) => true | _ => false)) ∧
    t.mem = (envOps i s).foldl (fun m o => match o with | .bufWrite off b => Memory.write m off b | _ => m) s.mem

/-- R68: the block never depends on what the buffer holds: with another buffer, a step makes the same move, and the two
next states differ in the buffer only. -/
def Obligations.BufferContentsNeverMatter : Prop :=
  ∀ (s : State) (m : Memory),
    (∀ t, step s = .next t → ∃ m', step { s with mem := m } = .next { t with mem := m' }) ∧
    (∀ f, step s = .fault f → step { s with mem := m } = .fault f) ∧
    ∀ r, step s = .refused r → step { s with mem := m } = .refused r

/-- R122: given the result of its timed read, an operation sees neither the channel's queue nor the clock. -/
def Obligations.OnlyTimedReadsSeeChannelAndClock : Prop :=
  ∀ (i : Instr) (s t : State) (rx : List Byte) (now : Word32), wireItem? i = none → (∀ w, i ≠ .trdArm w) →
    i ≠ .trdPoll → i ≠ .trdChk → exec i s = .next t →
    exec i { s.atTime now with rx := rx } = .next { t.atTime now with rx := rx }

/-- R34, R231: after START two blocks at rest differ in nothing but `deadline`, whatever their registers held. -/
def Obligations.NothingSurvivesStart : Prop :=
  ∀ (s u : State) (c : Nat), busy s = false → busy u = false →
    u.txValid = s.txValid → u.txData = s.txData → u.rxPop = s.rxPop → u.bufWe = s.bufWe → u.bufOff = s.bufOff →
    u.bufWdata = s.bufWdata → u.mem = s.mem → u.rx = s.rx → u.tx = s.tx → u.inp = s.inp → u.script = s.script →
    u.draws = s.draws →
    ∃ t, exec (.start c) s = .next t ∧ exec (.start c) u = .next { t with deadline := u.deadline }

/-- R122: where a byte waits, the three operations arm, poll and the one the byte selects come to the same as the big step
that draws that byte: the same registers, buffer and transmit stream. That they are three block cycles is the model's choice
(log entry 1), as is the big step's form (log entry 23); that the first of them also begins the timed read, and that the
byte waits in `result` for the third, is log entry 3. -/
def Obligations.BigStepWithAByteIsThreeCycles : Prop :=
  ∀ (s : State) (b : Byte) (rest : List Byte) (i1 i2 i3 : Inputs) (es : List Event),
    reading s.st = true → s.tst = .off → s.result = none → s.rx = b :: rest →
    s.script = .cycle i1 :: .cycle i2 :: .cycle i3 :: es → i1.rst = false → i2.rst = false → i3.rst = false →
    ∃ i u tr t, bigStep (.byte b) s = some (i, u, tr) ∧ run 3 s = .next t ∧
      t.st = u.st ∧ t.tst = u.tst ∧ t.length = u.length ∧ t.expectedBlockNumber = u.expectedBlockNumber ∧
      t.retryCount = u.retryCount ∧ t.pendingAck = u.pendingAck ∧ t.checksum = u.checksum ∧ t.lastError = u.lastError ∧
      t.byteIndex = u.byteIndex ∧ t.canCount = u.canCount ∧ t.capacity = u.capacity ∧ t.mem = u.mem ∧ t.tx = u.tx ∧
      t.result = u.result ∧ t.rx = rest ∧ t.script = es

/-- R69, R142, R169 to R178, R138: a frame that bears the expected number and its inverse and waits in the channel, read
from `AWAIT_START`: 132 timed reads
of three cycles with their operations, and one operation, are 397 block cycles by the model's choice (log entries 1, 3). Its payload goes to the 128 offsets from `length` on and to no other; with the
right checksum the block is committed, with a wrong one `length` is rolled back and the bytes stay in the buffer. -/
def Obligations.FrameIsCommittedOrRolledBack : Prop :=
  ∀ (s : State) (data : List Byte) (cks : Byte) (rest : List Byte) (ins : List Inputs) (es : List Event),
    s.st = .awaitStart → s.tst = .off → s.result = none → data.length = 128 →
    s.rx = [0x01#8, s.expectedBlockNumber, ~~~s.expectedBlockNumber] ++ data ++ [cks] ++ rest →
    ins.length = 397 → (∀ i ∈ ins, i.rst = false) → s.script = ins.map .cycle ++ es →
    ∃ t, run 397 s = .next t ∧ t.st = .loopCheck ∧ t.rx = rest ∧ t.tx = s.tx ∧ t.script = es ∧ t.byteIndex = 0#8 ∧
      t.retryCount = s.retryCount ∧ t.lastError = s.lastError ∧ t.capacity = s.capacity ∧
      (∀ k, k < 128 → Memory.read t.mem (s.length + k) = data[k]?) ∧
      (∀ a, a < s.length ∨ s.length + 128 ≤ a → Memory.read t.mem a = Memory.read s.mem a) ∧
      (cks = sumBytes data →
        t.length = s.length + 128 ∧ t.expectedBlockNumber = s.expectedBlockNumber + 1#8 ∧ t.pendingAck = 0x06#8) ∧
      (cks ≠ sumBytes data →
        t.length = s.length ∧ t.expectedBlockNumber = s.expectedBlockNumber ∧ t.pendingAck = s.pendingAck)

/-! ## Decode and encode -/

/-- R91 to R96, R103, R81 to R84: decoding the code of a well-formed instruction gives it back, with every operand at
every value the encoding admits. The form of a code is the model's (log entry 19). -/
def Obligations.DecodeOfEncodeIsTheInstruction : Prop :=
  ∀ (exp cks : Byte) (i : Instr), i.wf = true → i.agrees exp cks = true → decode exp cks (encode i) = .ok i

/-- R91 to R96, R103: what the decoder gives is well-formed and in the class the registers give its byte, START's operand
being what the port carries. -/
def Obligations.DecodedInstructionsFitTheirClass : Prop :=
  ∀ (exp cks : Byte) (c : Code) (i : Instr), decode exp cks c = .ok i →
    (∀ n, i ≠ .start n) → i.wf = true ∧ i.agrees exp cks = true

/-- R20, R22, R81, R82, R84, R91, R92: words written out from the tables decode to what they stand for. -/
def Obligations.WordsOfTheTablesDecode : Prop :=
  decode 1#8 0#8 (.op ⟨3#5, 1#2, .quiet⟩) = .ok (.trdArm 250000#32) ∧
  decode 1#8 0#8 (.op ⟨6#5, 2#2, .quiet⟩) = .ok .trdPoll ∧
  decode 1#8 0#8 (.op ⟨18#5, 0#2, .start 384⟩) = .ok (.start 384) ∧
  decode 1#8 0#8 (.op ⟨16#5, 0#2, .quiet⟩) = .ok .sendcan ∧
  decode 1#8 0#8 (.op ⟨6#5, 0#2, .byte 0x18#8⟩) = .ok (.awaitOther 0x18#8) ∧
  decode 0#8 0#8 (.op ⟨7#5, 0#2, .byte 0xFF#8⟩) = .ok (.blknumDup 0xFF#8) ∧
  decode 1#8 0#8 (.op ⟨10#5, 0#2, .byte 0xFE#8⟩) = .ok (.invblkOk 0xFE#8) ∧
  decode 1#8 0#8 (.op ⟨20#5, 0#2, .quiet⟩) = .error .reservedState ∧
  decode 1#8 0#8 (.const 0x15#8) = .ok .nak ∧
  decode 1#8 0#8 (.frame [0x18#8, 0x18#8, 0x18#8]) = .ok .canSequence

/-! ## The transmit port -/

/-- R38: a byte is written in exactly the block cycles in which `tx_valid` and `tx_ready` are both 1, and it is `tx_data`:
`tx_valid`, `tx_data` and `tx_ready` being what the ports showed in the cycle just done (log entries 16 and 22). -/
def Obligations.WritesHappenWhenValidAndReady : Prop :=
  ∀ (s t : State) (inp : Inputs), (nextEvent s).1 = .cycle inp → inp.rst = false → step s = .next t →
    t.inp = inp ∧ t.tx = s.tx ++ (if t.txValid = true ∧ t.inp.txReady = true then [t.txData] else [])
end

