-- ==== Sys2Proof/Laws/Decode.lean ====
section
/-! SUPPORT. The codes and their names, and the decoder on a selection built from names. -/

namespace Sys2Proof

@[simp] theorem St.ofCode_code (st : St) : St.ofCode st.code = some st := by cases st <;> rfl

@[simp] theorem Tst.ofCode_code (t : Tst) : Tst.ofCode t.code = t := by cases t <;> rfl

/-- A name is the name of its code only. -/
theorem St.code_ofCode : ∀ (c : BitVec 5) (st : St), St.ofCode c = some st → st.code = c := by decide

/-- No timed read in progress: `st` and the event decide (R103). -/
@[simp] theorem decode_off (exp cks : Byte) (st : St) (e : OpEvent) :
    decode exp cks (.op ⟨st.code, Tst.off.code, e⟩) = decodeState exp cks e st := by
  simp [decode, decodeOp]

/-- `tst = T_ARM` selects `TRD.ARM` with the state's timeout (R90, R111). -/
theorem decode_arm (exp cks : Byte) (st : St) (e : OpEvent) (w : Word32) (h : st.timeout = some w) :
    decode exp cks (.op ⟨st.code, Tst.arm.code, e⟩) = .ok (.trdArm w) := by
  simp [decode, decodeOp, h]

/-- `tst = T_POLL` selects `TRD.POLL` (R112). -/
@[simp] theorem decode_poll (exp cks : Byte) (st : St) (e : OpEvent) :
    decode exp cks (.op ⟨st.code, Tst.poll.code, e⟩) = .ok .trdPoll := by
  simp [decode, decodeOp]

/-- `tst = T_CHK` selects `TRD.CHK` (R113). -/
@[simp] theorem decode_chk (exp cks : Byte) (st : St) (e : OpEvent) :
    decode exp cks (.op ⟨st.code, Tst.chk.code, e⟩) = .ok .trdChk := by
  simp [decode, decodeOp]

/-- The payload and the checksum of a frame come apart again. -/
theorem decodeDataFrame_bytes (blk inv cks : Byte) (data : List Byte) (h : data.length = 128) :
    decodeDataFrame (blk :: inv :: (data ++ [cks])) =
      if inv ≠ inverseBlock blk then .error .frameInverse
      else if cks ≠ sumBytes data then .error .frameChecksum
      else .ok (.dataFrame blk inv data cks) := by
  have hd : (data ++ [cks]).drop 128 = [cks] := by rw [← h, List.drop_left]
  have ht : (data ++ [cks]).take 128 = data := by rw [← h, List.take_left]
  simp [decodeDataFrame, Config.blockSize, hd, ht]

end Sys2Proof
end

