-- ==== Sys2Proof/Laws/Memory.lean ====
section
/-! SUPPORT. The laws of the buffer: read after write, and the canonical form. -/

namespace Sys2Proof.Machine

/-- A byte just stored is read back. -/
@[simp] theorem Memory.read_write_same (m : Memory) (a : Nat) (v : Byte) : Memory.read (Memory.write m a v) a = some v := by
  induction m with
  | nil => simp [Memory.write, Memory.read]
  | cons c m ih =>
    obtain ⟨k, w⟩ := c
    simp only [Memory.write]
    split
    · simp [Memory.read]
    · split
      · simp [Memory.read]
      · rename_i _ hne
        simp only [Memory.read, ih]
        rw [if_neg fun h => hne h.symm]

/-- Every other byte reads as before. -/
theorem Memory.read_write_other (m : Memory) (a x : Nat) (v : Byte) (h : x ≠ a) :
    Memory.read (Memory.write m a v) x = Memory.read m x := by
  have h' : a ≠ x := fun e => h e.symm
  induction m with
  | nil => simp [Memory.write, Memory.read, h']
  | cons c m ih =>
    obtain ⟨k, w⟩ := c
    simp only [Memory.write]
    split
    · simp [Memory.read, h']
    · split
      · rename_i _ hk
        simp [Memory.read, ← hk, h']
      · simp [Memory.read, ih]

theorem Memory.above_write (m : Memory) (a k : Nat) (v : Byte) (h : Memory.above k m = true) (hk : k < a) :
    Memory.above k (Memory.write m a v) = true := by
  induction m with
  | nil => simp [Memory.write, Memory.above, hk]
  | cons c m ih =>
    obtain ⟨j, w⟩ := c
    simp only [Memory.above, Bool.and_eq_true, decide_eq_true_eq] at h
    simp only [Memory.write]
    split
    · simp [Memory.above, hk, h.1, h.2]
    · split
      · simp [Memory.above, hk, h.2]
      · simp [Memory.above, h.1, ih h.2]

theorem Memory.above_of_lt (m : Memory) (a k : Nat) (h : Memory.above k m = true) (hk : a < k) :
    Memory.above a m = true := by
  induction m with
  | nil => rfl
  | cons c m ih =>
    obtain ⟨j, w⟩ := c
    simp only [Memory.above, Bool.and_eq_true, decide_eq_true_eq] at h ⊢
    exact ⟨by omega, ih h.2⟩

/-- A store keeps the canonical form. -/
theorem Memory.write_wf (m : Memory) (a : Nat) (v : Byte) (h : Memory.wf m = true) : Memory.wf (Memory.write m a v) = true := by
  induction m with
  | nil => rfl
  | cons c m ih =>
    obtain ⟨k, w⟩ := c
    simp only [Memory.wf, Bool.and_eq_true] at h
    simp only [Memory.write]
    split
    · rename_i hlt
      simp [Memory.wf, Memory.above, hlt, h.1, h.2, Memory.above_of_lt m a k h.1 hlt]
    · split
      · rename_i _ he
        subst he
        simp [Memory.wf, h.1, h.2]
      · rename_i h1 h2
        simp [Memory.wf, Memory.above_write m a k v h.1 (by omega), ih h.2]

/-- The reset memory has the canonical form. -/
theorem Memory.reset_wf : Memory.wf State.reset.mem = true := rfl

end Sys2Proof.Machine
end

