-- ==== Sys2Proof/Laws/State.lean ====
section
/-! SUPPORT. One lemma per field per named update of State, so that no proof unfolds a record update. -/

namespace Sys2Proof.Machine

@[simp] theorem goto_st (s : State) (x : St) : (s.goto x).st = x := rfl
@[simp] theorem goto_tst (s : State) (x : St) : (s.goto x).tst = s.tst := rfl
@[simp] theorem goto_length (s : State) (x : St) : (s.goto x).length = s.length := rfl
@[simp] theorem goto_expectedBlockNumber (s : State) (x : St) : (s.goto x).expectedBlockNumber = s.expectedBlockNumber := rfl
@[simp] theorem goto_retryCount (s : State) (x : St) : (s.goto x).retryCount = s.retryCount := rfl
@[simp] theorem goto_pendingAck (s : State) (x : St) : (s.goto x).pendingAck = s.pendingAck := rfl
@[simp] theorem goto_checksum (s : State) (x : St) : (s.goto x).checksum = s.checksum := rfl
@[simp] theorem goto_lastError (s : State) (x : St) : (s.goto x).lastError = s.lastError := rfl
@[simp] theorem goto_byteIndex (s : State) (x : St) : (s.goto x).byteIndex = s.byteIndex := rfl
@[simp] theorem goto_deadline (s : State) (x : St) : (s.goto x).deadline = s.deadline := rfl
@[simp] theorem goto_canCount (s : State) (x : St) : (s.goto x).canCount = s.canCount := rfl
@[simp] theorem goto_capacity (s : State) (x : St) : (s.goto x).capacity = s.capacity := rfl
@[simp] theorem goto_txValid (s : State) (x : St) : (s.goto x).txValid = s.txValid := rfl
@[simp] theorem goto_txData (s : State) (x : St) : (s.goto x).txData = s.txData := rfl
@[simp] theorem goto_rxPop (s : State) (x : St) : (s.goto x).rxPop = s.rxPop := rfl
@[simp] theorem goto_bufWe (s : State) (x : St) : (s.goto x).bufWe = s.bufWe := rfl
@[simp] theorem goto_bufOff (s : State) (x : St) : (s.goto x).bufOff = s.bufOff := rfl
@[simp] theorem goto_bufWdata (s : State) (x : St) : (s.goto x).bufWdata = s.bufWdata := rfl
@[simp] theorem goto_mem (s : State) (x : St) : (s.goto x).mem = s.mem := rfl
@[simp] theorem goto_rx (s : State) (x : St) : (s.goto x).rx = s.rx := rfl
@[simp] theorem goto_tx (s : State) (x : St) : (s.goto x).tx = s.tx := rfl
@[simp] theorem goto_inp (s : State) (x : St) : (s.goto x).inp = s.inp := rfl
@[simp] theorem goto_result (s : State) (x : St) : (s.goto x).result = s.result := rfl
@[simp] theorem goto_script (s : State) (x : St) : (s.goto x).script = s.script := rfl
@[simp] theorem goto_draws (s : State) (x : St) : (s.goto x).draws = s.draws := rfl

@[simp] theorem consume_st (s : State) : (s.consume).st = s.st := rfl
@[simp] theorem consume_tst (s : State) : (s.consume).tst = s.tst := rfl
@[simp] theorem consume_length (s : State) : (s.consume).length = s.length := rfl
@[simp] theorem consume_expectedBlockNumber (s : State) : (s.consume).expectedBlockNumber = s.expectedBlockNumber := rfl
@[simp] theorem consume_retryCount (s : State) : (s.consume).retryCount = s.retryCount := rfl
@[simp] theorem consume_pendingAck (s : State) : (s.consume).pendingAck = s.pendingAck := rfl
@[simp] theorem consume_checksum (s : State) : (s.consume).checksum = s.checksum := rfl
@[simp] theorem consume_lastError (s : State) : (s.consume).lastError = s.lastError := rfl
@[simp] theorem consume_byteIndex (s : State) : (s.consume).byteIndex = s.byteIndex := rfl
@[simp] theorem consume_deadline (s : State) : (s.consume).deadline = s.deadline := rfl
@[simp] theorem consume_canCount (s : State) : (s.consume).canCount = s.canCount := rfl
@[simp] theorem consume_capacity (s : State) : (s.consume).capacity = s.capacity := rfl
@[simp] theorem consume_txValid (s : State) : (s.consume).txValid = s.txValid := rfl
@[simp] theorem consume_txData (s : State) : (s.consume).txData = s.txData := rfl
@[simp] theorem consume_rxPop (s : State) : (s.consume).rxPop = s.rxPop := rfl
@[simp] theorem consume_bufWe (s : State) : (s.consume).bufWe = s.bufWe := rfl
@[simp] theorem consume_bufOff (s : State) : (s.consume).bufOff = s.bufOff := rfl
@[simp] theorem consume_bufWdata (s : State) : (s.consume).bufWdata = s.bufWdata := rfl
@[simp] theorem consume_mem (s : State) : (s.consume).mem = s.mem := rfl
@[simp] theorem consume_rx (s : State) : (s.consume).rx = s.rx := rfl
@[simp] theorem consume_tx (s : State) : (s.consume).tx = s.tx := rfl
@[simp] theorem consume_inp (s : State) : (s.consume).inp = s.inp := rfl
@[simp] theorem consume_result (s : State) : (s.consume).result = none := rfl
@[simp] theorem consume_script (s : State) : (s.consume).script = s.script := rfl
@[simp] theorem consume_draws (s : State) : (s.consume).draws = s.draws := rfl

@[simp] theorem raise_st (c : Cause) (s : State) : (raise c s).st = if transient c then .reject else .fail := rfl
@[simp] theorem raise_tst (c : Cause) (s : State) : (raise c s).tst = s.tst := rfl
@[simp] theorem raise_length (c : Cause) (s : State) : (raise c s).length = s.length := rfl
@[simp] theorem raise_expectedBlockNumber (c : Cause) (s : State) : (raise c s).expectedBlockNumber = s.expectedBlockNumber := rfl
@[simp] theorem raise_retryCount (c : Cause) (s : State) : (raise c s).retryCount = s.retryCount := rfl
@[simp] theorem raise_pendingAck (c : Cause) (s : State) : (raise c s).pendingAck = s.pendingAck := rfl
@[simp] theorem raise_checksum (c : Cause) (s : State) : (raise c s).checksum = s.checksum := rfl
@[simp] theorem raise_lastError (c : Cause) (s : State) : (raise c s).lastError = s.lastError := rfl
@[simp] theorem raise_byteIndex (c : Cause) (s : State) : (raise c s).byteIndex = s.byteIndex := rfl
@[simp] theorem raise_deadline (c : Cause) (s : State) : (raise c s).deadline = s.deadline := rfl
@[simp] theorem raise_canCount (c : Cause) (s : State) : (raise c s).canCount = s.canCount := rfl
@[simp] theorem raise_capacity (c : Cause) (s : State) : (raise c s).capacity = s.capacity := rfl
@[simp] theorem raise_txValid (c : Cause) (s : State) : (raise c s).txValid = s.txValid := rfl
@[simp] theorem raise_txData (c : Cause) (s : State) : (raise c s).txData = s.txData := rfl
@[simp] theorem raise_rxPop (c : Cause) (s : State) : (raise c s).rxPop = s.rxPop := rfl
@[simp] theorem raise_bufWe (c : Cause) (s : State) : (raise c s).bufWe = s.bufWe := rfl
@[simp] theorem raise_bufOff (c : Cause) (s : State) : (raise c s).bufOff = s.bufOff := rfl
@[simp] theorem raise_bufWdata (c : Cause) (s : State) : (raise c s).bufWdata = s.bufWdata := rfl
@[simp] theorem raise_mem (c : Cause) (s : State) : (raise c s).mem = s.mem := rfl
@[simp] theorem raise_rx (c : Cause) (s : State) : (raise c s).rx = s.rx := rfl
@[simp] theorem raise_tx (c : Cause) (s : State) : (raise c s).tx = s.tx := rfl
@[simp] theorem raise_inp (c : Cause) (s : State) : (raise c s).inp = s.inp := rfl
@[simp] theorem raise_result (c : Cause) (s : State) : (raise c s).result = s.result := rfl
@[simp] theorem raise_script (c : Cause) (s : State) : (raise c s).script = s.script := rfl
@[simp] theorem raise_draws (c : Cause) (s : State) : (raise c s).draws = s.draws := rfl

@[simp] theorem bufWrite_st (off : Nat) (b : Byte) (s : State) : (bufWrite off b s).st = s.st := rfl
@[simp] theorem bufWrite_tst (off : Nat) (b : Byte) (s : State) : (bufWrite off b s).tst = s.tst := rfl
@[simp] theorem bufWrite_length (off : Nat) (b : Byte) (s : State) : (bufWrite off b s).length = s.length := rfl
@[simp] theorem bufWrite_expectedBlockNumber (off : Nat) (b : Byte) (s : State) : (bufWrite off b s).expectedBlockNumber = s.expectedBlockNumber := rfl
@[simp] theorem bufWrite_retryCount (off : Nat) (b : Byte) (s : State) : (bufWrite off b s).retryCount = s.retryCount := rfl
@[simp] theorem bufWrite_pendingAck (off : Nat) (b : Byte) (s : State) : (bufWrite off b s).pendingAck = s.pendingAck := rfl
@[simp] theorem bufWrite_checksum (off : Nat) (b : Byte) (s : State) : (bufWrite off b s).checksum = s.checksum := rfl
@[simp] theorem bufWrite_lastError (off : Nat) (b : Byte) (s : State) : (bufWrite off b s).lastError = s.lastError := rfl
@[simp] theorem bufWrite_byteIndex (off : Nat) (b : Byte) (s : State) : (bufWrite off b s).byteIndex = s.byteIndex := rfl
@[simp] theorem bufWrite_deadline (off : Nat) (b : Byte) (s : State) : (bufWrite off b s).deadline = s.deadline := rfl
@[simp] theorem bufWrite_canCount (off : Nat) (b : Byte) (s : State) : (bufWrite off b s).canCount = s.canCount := rfl
@[simp] theorem bufWrite_capacity (off : Nat) (b : Byte) (s : State) : (bufWrite off b s).capacity = s.capacity := rfl
@[simp] theorem bufWrite_txValid (off : Nat) (b : Byte) (s : State) : (bufWrite off b s).txValid = s.txValid := rfl
@[simp] theorem bufWrite_txData (off : Nat) (b : Byte) (s : State) : (bufWrite off b s).txData = s.txData := rfl
@[simp] theorem bufWrite_rxPop (off : Nat) (b : Byte) (s : State) : (bufWrite off b s).rxPop = s.rxPop := rfl
@[simp] theorem bufWrite_bufWe (off : Nat) (b : Byte) (s : State) : (bufWrite off b s).bufWe = true := rfl
@[simp] theorem bufWrite_bufOff (off : Nat) (b : Byte) (s : State) : (bufWrite off b s).bufOff = off := rfl
@[simp] theorem bufWrite_bufWdata (off : Nat) (b : Byte) (s : State) : (bufWrite off b s).bufWdata = b := rfl
@[simp] theorem bufWrite_mem (off : Nat) (b : Byte) (s : State) : (bufWrite off b s).mem = Memory.write s.mem off b := rfl
@[simp] theorem bufWrite_rx (off : Nat) (b : Byte) (s : State) : (bufWrite off b s).rx = s.rx := rfl
@[simp] theorem bufWrite_tx (off : Nat) (b : Byte) (s : State) : (bufWrite off b s).tx = s.tx := rfl
@[simp] theorem bufWrite_inp (off : Nat) (b : Byte) (s : State) : (bufWrite off b s).inp = s.inp := rfl
@[simp] theorem bufWrite_result (off : Nat) (b : Byte) (s : State) : (bufWrite off b s).result = s.result := rfl
@[simp] theorem bufWrite_script (off : Nat) (b : Byte) (s : State) : (bufWrite off b s).script = s.script := rfl
@[simp] theorem bufWrite_draws (off : Nat) (b : Byte) (s : State) : (bufWrite off b s).draws = s.draws := rfl

@[simp] theorem receive_st (bs : List Byte) (s : State) : (receive bs s).st = s.st := rfl
@[simp] theorem receive_tst (bs : List Byte) (s : State) : (receive bs s).tst = s.tst := rfl
@[simp] theorem receive_length (bs : List Byte) (s : State) : (receive bs s).length = s.length := rfl
@[simp] theorem receive_expectedBlockNumber (bs : List Byte) (s : State) : (receive bs s).expectedBlockNumber = s.expectedBlockNumber := rfl
@[simp] theorem receive_retryCount (bs : List Byte) (s : State) : (receive bs s).retryCount = s.retryCount := rfl
@[simp] theorem receive_pendingAck (bs : List Byte) (s : State) : (receive bs s).pendingAck = s.pendingAck := rfl
@[simp] theorem receive_checksum (bs : List Byte) (s : State) : (receive bs s).checksum = s.checksum := rfl
@[simp] theorem receive_lastError (bs : List Byte) (s : State) : (receive bs s).lastError = s.lastError := rfl
@[simp] theorem receive_byteIndex (bs : List Byte) (s : State) : (receive bs s).byteIndex = s.byteIndex := rfl
@[simp] theorem receive_deadline (bs : List Byte) (s : State) : (receive bs s).deadline = s.deadline := rfl
@[simp] theorem receive_canCount (bs : List Byte) (s : State) : (receive bs s).canCount = s.canCount := rfl
@[simp] theorem receive_capacity (bs : List Byte) (s : State) : (receive bs s).capacity = s.capacity := rfl
@[simp] theorem receive_txValid (bs : List Byte) (s : State) : (receive bs s).txValid = s.txValid := rfl
@[simp] theorem receive_txData (bs : List Byte) (s : State) : (receive bs s).txData = s.txData := rfl
@[simp] theorem receive_rxPop (bs : List Byte) (s : State) : (receive bs s).rxPop = s.rxPop := rfl
@[simp] theorem receive_bufWe (bs : List Byte) (s : State) : (receive bs s).bufWe = s.bufWe := rfl
@[simp] theorem receive_bufOff (bs : List Byte) (s : State) : (receive bs s).bufOff = s.bufOff := rfl
@[simp] theorem receive_bufWdata (bs : List Byte) (s : State) : (receive bs s).bufWdata = s.bufWdata := rfl
@[simp] theorem receive_mem (bs : List Byte) (s : State) : (receive bs s).mem = s.mem := rfl
@[simp] theorem receive_rx (bs : List Byte) (s : State) : (receive bs s).rx = s.rx ++ bs := rfl
@[simp] theorem receive_tx (bs : List Byte) (s : State) : (receive bs s).tx = s.tx := rfl
@[simp] theorem receive_inp (bs : List Byte) (s : State) : (receive bs s).inp = s.inp := rfl
@[simp] theorem receive_result (bs : List Byte) (s : State) : (receive bs s).result = s.result := rfl
@[simp] theorem receive_script (bs : List Byte) (s : State) : (receive bs s).script = s.script := rfl
@[simp] theorem receive_draws (bs : List Byte) (s : State) : (receive bs s).draws = s.draws := rfl

@[simp] theorem transmit_st (bs : List Byte) (s : State) : (transmit bs s).st = s.st := rfl
@[simp] theorem transmit_tst (bs : List Byte) (s : State) : (transmit bs s).tst = s.tst := rfl
@[simp] theorem transmit_length (bs : List Byte) (s : State) : (transmit bs s).length = s.length := rfl
@[simp] theorem transmit_expectedBlockNumber (bs : List Byte) (s : State) : (transmit bs s).expectedBlockNumber = s.expectedBlockNumber := rfl
@[simp] theorem transmit_retryCount (bs : List Byte) (s : State) : (transmit bs s).retryCount = s.retryCount := rfl
@[simp] theorem transmit_pendingAck (bs : List Byte) (s : State) : (transmit bs s).pendingAck = s.pendingAck := rfl
@[simp] theorem transmit_checksum (bs : List Byte) (s : State) : (transmit bs s).checksum = s.checksum := rfl
@[simp] theorem transmit_lastError (bs : List Byte) (s : State) : (transmit bs s).lastError = s.lastError := rfl
@[simp] theorem transmit_byteIndex (bs : List Byte) (s : State) : (transmit bs s).byteIndex = s.byteIndex := rfl
@[simp] theorem transmit_deadline (bs : List Byte) (s : State) : (transmit bs s).deadline = s.deadline := rfl
@[simp] theorem transmit_canCount (bs : List Byte) (s : State) : (transmit bs s).canCount = s.canCount := rfl
@[simp] theorem transmit_capacity (bs : List Byte) (s : State) : (transmit bs s).capacity = s.capacity := rfl
@[simp] theorem transmit_txValid (bs : List Byte) (s : State) : (transmit bs s).txValid = s.txValid := rfl
@[simp] theorem transmit_txData (bs : List Byte) (s : State) : (transmit bs s).txData = s.txData := rfl
@[simp] theorem transmit_rxPop (bs : List Byte) (s : State) : (transmit bs s).rxPop = s.rxPop := rfl
@[simp] theorem transmit_bufWe (bs : List Byte) (s : State) : (transmit bs s).bufWe = s.bufWe := rfl
@[simp] theorem transmit_bufOff (bs : List Byte) (s : State) : (transmit bs s).bufOff = s.bufOff := rfl
@[simp] theorem transmit_bufWdata (bs : List Byte) (s : State) : (transmit bs s).bufWdata = s.bufWdata := rfl
@[simp] theorem transmit_mem (bs : List Byte) (s : State) : (transmit bs s).mem = s.mem := rfl
@[simp] theorem transmit_rx (bs : List Byte) (s : State) : (transmit bs s).rx = s.rx := rfl
@[simp] theorem transmit_tx (bs : List Byte) (s : State) : (transmit bs s).tx = s.tx ++ bs := rfl
@[simp] theorem transmit_inp (bs : List Byte) (s : State) : (transmit bs s).inp = s.inp := rfl
@[simp] theorem transmit_result (bs : List Byte) (s : State) : (transmit bs s).result = s.result := rfl
@[simp] theorem transmit_script (bs : List Byte) (s : State) : (transmit bs s).script = s.script := rfl
@[simp] theorem transmit_draws (bs : List Byte) (s : State) : (transmit bs s).draws = s.draws := rfl

@[simp] theorem beginCycle_st (i : Inputs) (s : State) : (beginCycle i s).st = s.st := rfl
@[simp] theorem beginCycle_tst (i : Inputs) (s : State) : (beginCycle i s).tst = s.tst := rfl
@[simp] theorem beginCycle_length (i : Inputs) (s : State) : (beginCycle i s).length = s.length := rfl
@[simp] theorem beginCycle_expectedBlockNumber (i : Inputs) (s : State) : (beginCycle i s).expectedBlockNumber = s.expectedBlockNumber := rfl
@[simp] theorem beginCycle_retryCount (i : Inputs) (s : State) : (beginCycle i s).retryCount = s.retryCount := rfl
@[simp] theorem beginCycle_pendingAck (i : Inputs) (s : State) : (beginCycle i s).pendingAck = s.pendingAck := rfl
@[simp] theorem beginCycle_checksum (i : Inputs) (s : State) : (beginCycle i s).checksum = s.checksum := rfl
@[simp] theorem beginCycle_lastError (i : Inputs) (s : State) : (beginCycle i s).lastError = s.lastError := rfl
@[simp] theorem beginCycle_byteIndex (i : Inputs) (s : State) : (beginCycle i s).byteIndex = s.byteIndex := rfl
@[simp] theorem beginCycle_deadline (i : Inputs) (s : State) : (beginCycle i s).deadline = s.deadline := rfl
@[simp] theorem beginCycle_canCount (i : Inputs) (s : State) : (beginCycle i s).canCount = s.canCount := rfl
@[simp] theorem beginCycle_capacity (i : Inputs) (s : State) : (beginCycle i s).capacity = s.capacity := rfl
@[simp] theorem beginCycle_txValid (i : Inputs) (s : State) : (beginCycle i s).txValid = false := rfl
@[simp] theorem beginCycle_txData (i : Inputs) (s : State) : (beginCycle i s).txData = s.txData := rfl
@[simp] theorem beginCycle_rxPop (i : Inputs) (s : State) : (beginCycle i s).rxPop = false := rfl
@[simp] theorem beginCycle_bufWe (i : Inputs) (s : State) : (beginCycle i s).bufWe = false := rfl
@[simp] theorem beginCycle_bufOff (i : Inputs) (s : State) : (beginCycle i s).bufOff = s.bufOff := rfl
@[simp] theorem beginCycle_bufWdata (i : Inputs) (s : State) : (beginCycle i s).bufWdata = s.bufWdata := rfl
@[simp] theorem beginCycle_mem (i : Inputs) (s : State) : (beginCycle i s).mem = s.mem := rfl
@[simp] theorem beginCycle_rx (i : Inputs) (s : State) : (beginCycle i s).rx = s.rx := rfl
@[simp] theorem beginCycle_tx (i : Inputs) (s : State) : (beginCycle i s).tx = s.tx := rfl
@[simp] theorem beginCycle_inp (i : Inputs) (s : State) : (beginCycle i s).inp = i := rfl
@[simp] theorem beginCycle_result (i : Inputs) (s : State) : (beginCycle i s).result = s.result := rfl
@[simp] theorem beginCycle_script (i : Inputs) (s : State) : (beginCycle i s).script = s.script := rfl
@[simp] theorem beginCycle_draws (i : Inputs) (s : State) : (beginCycle i s).draws = s.draws := rfl

/-- Taking a transient fault is going to `REJECT` (R197). -/
theorem raise_transient (c : Cause) (s : State) (h : transient c = true) : raise c s = s.goto .reject := by
  simp [raise, h]

/-- Taking a terminal fault is going to `FAIL` (R196). -/
theorem raise_terminal (c : Cause) (s : State) (h : transient c = false) : raise c s = s.goto .fail := by
  simp [raise, h]

/-! Offering a byte changes the transmit port only. -/

@[simp] theorem offer_txValid (b : Byte) (s : State) : (offer b s).txValid = true := rfl
@[simp] theorem offer_txData (b : Byte) (s : State) : (offer b s).txData = b := rfl
@[simp] theorem offer_st (b : Byte) (s : State) : (offer b s).st = s.st := rfl
@[simp] theorem offer_tst (b : Byte) (s : State) : (offer b s).tst = s.tst := rfl
@[simp] theorem offer_length (b : Byte) (s : State) : (offer b s).length = s.length := rfl
@[simp] theorem offer_expectedBlockNumber (b : Byte) (s : State) : (offer b s).expectedBlockNumber = s.expectedBlockNumber := rfl
@[simp] theorem offer_retryCount (b : Byte) (s : State) : (offer b s).retryCount = s.retryCount := rfl
@[simp] theorem offer_pendingAck (b : Byte) (s : State) : (offer b s).pendingAck = s.pendingAck := rfl
@[simp] theorem offer_checksum (b : Byte) (s : State) : (offer b s).checksum = s.checksum := rfl
@[simp] theorem offer_lastError (b : Byte) (s : State) : (offer b s).lastError = s.lastError := rfl
@[simp] theorem offer_byteIndex (b : Byte) (s : State) : (offer b s).byteIndex = s.byteIndex := rfl
@[simp] theorem offer_deadline (b : Byte) (s : State) : (offer b s).deadline = s.deadline := rfl
@[simp] theorem offer_canCount (b : Byte) (s : State) : (offer b s).canCount = s.canCount := rfl
@[simp] theorem offer_capacity (b : Byte) (s : State) : (offer b s).capacity = s.capacity := rfl
@[simp] theorem offer_rxPop (b : Byte) (s : State) : (offer b s).rxPop = s.rxPop := rfl
@[simp] theorem offer_bufWe (b : Byte) (s : State) : (offer b s).bufWe = s.bufWe := rfl
@[simp] theorem offer_bufOff (b : Byte) (s : State) : (offer b s).bufOff = s.bufOff := rfl
@[simp] theorem offer_bufWdata (b : Byte) (s : State) : (offer b s).bufWdata = s.bufWdata := rfl
@[simp] theorem offer_mem (b : Byte) (s : State) : (offer b s).mem = s.mem := rfl
@[simp] theorem offer_rx (b : Byte) (s : State) : (offer b s).rx = s.rx := rfl
@[simp] theorem offer_tx (b : Byte) (s : State) : (offer b s).tx = s.tx := rfl
@[simp] theorem offer_inp (b : Byte) (s : State) : (offer b s).inp = s.inp := rfl
@[simp] theorem offer_result (b : Byte) (s : State) : (offer b s).result = s.result := rfl
@[simp] theorem offer_script (b : Byte) (s : State) : (offer b s).script = s.script := rfl
@[simp] theorem offer_draws (b : Byte) (s : State) : (offer b s).draws = s.draws := rfl

end Sys2Proof.Machine
end

