-- ==== Sys2Proof/Laws/Ops.lean ====
section
/-! SUPPORT. What each shared operation can do, said once. -/

namespace Sys2Proof.Machine

/-- An empty channel answers `None` and nothing changes (R6). -/
theorem chanPoll_empty (s : State) (h : s.rx = []) : chanPoll s = (none, s) := by
  simp [chanPoll, h]

/-- A waiting byte is taken (R6). -/
theorem chanPoll_byte (s : State) (b : Byte) (rest : List Byte) (h : s.rx = b :: rest) :
    chanPoll s = (some b, { s with rx := rest, rxPop := true }) := by
  simp [chanPoll, h]

/-- A write that is accepted (R7, R38). -/
theorem chanWrite_ready (b : Byte) (f : State → State) (s : State) (h : s.inp.txReady = true) :
    chanWrite b f s = f { s with tx := s.tx ++ [b], txValid := true, txData := b } := by
  simp [chanWrite, h, transmit, offer]

/-- A write that is not: the byte stays offered and the block waits (R7, R245). -/
theorem chanWrite_waits (b : Byte) (f : State → State) (s : State) (h : s.inp.txReady = false) :
    chanWrite b f s = { s with txValid := true, txData := b } := by
  simp [chanWrite, h, offer]

/-- The signed reading of the expiry test (R13): bit 31 is 0 exactly when the difference is not negative. -/
theorem expired_iff (now deadline : Word32) : expired now deadline = true ↔ 0 ≤ (now - deadline).toInt := by
  have h : (now - deadline).getLsbD 31 = (now - deadline).msb := by rw [BitVec.msb_eq_getLsbD_last]
  rw [expired, h, BitVec.msb_eq_toInt]
  simp

/-- A byte is in at most one of the classes DUP and OK: the two numbers differ (R179). -/
theorem prevBlock_ne (exp : Byte) : prevBlock exp ≠ exp := by
  simp only [prevBlock]; bv_omega

/-- A reading state is one that has a timeout operand (R22, R90). -/
theorem reading_timeout (st : St) (h : reading st = true) : ∃ w, st.timeout = some w :=
  Option.isSome_iff_exists.1 h

/-- A state is at rest exactly when it is not busy (R35, R144). -/
theorem atRest_iff_not_busy (s : State) : atRest s.st = true ↔ busy s = false := by
  cases h : s.st <;> simp [atRest, busy, h]

/-- Beginning a timed read (R110). -/
theorem beginRead_arms (s : State) (h1 : reading s.st = true) (h2 : s.tst = .off) (h3 : s.result = none) :
    beginRead s = { s with tst := .arm } := by
  simp [beginRead, h1, h2, h3]

/-- Outside that case the state is unchanged. -/
theorem beginRead_idle (s : State) (h : reading s.st = false ∨ s.tst ≠ .off ∨ s.result ≠ none) : beginRead s = s := by
  rcases h with h | h | h <;> simp [beginRead, h]

/-! Beginning a timed read changes `tst` only. -/

@[simp] theorem beginRead_st (s : State) : (beginRead s).st = s.st := by unfold beginRead; split <;> rfl
@[simp] theorem beginRead_length (s : State) : (beginRead s).length = s.length := by unfold beginRead; split <;> rfl
@[simp] theorem beginRead_expectedBlockNumber (s : State) : (beginRead s).expectedBlockNumber = s.expectedBlockNumber := by unfold beginRead; split <;> rfl
@[simp] theorem beginRead_retryCount (s : State) : (beginRead s).retryCount = s.retryCount := by unfold beginRead; split <;> rfl
@[simp] theorem beginRead_pendingAck (s : State) : (beginRead s).pendingAck = s.pendingAck := by unfold beginRead; split <;> rfl
@[simp] theorem beginRead_checksum (s : State) : (beginRead s).checksum = s.checksum := by unfold beginRead; split <;> rfl
@[simp] theorem beginRead_lastError (s : State) : (beginRead s).lastError = s.lastError := by unfold beginRead; split <;> rfl
@[simp] theorem beginRead_byteIndex (s : State) : (beginRead s).byteIndex = s.byteIndex := by unfold beginRead; split <;> rfl
@[simp] theorem beginRead_deadline (s : State) : (beginRead s).deadline = s.deadline := by unfold beginRead; split <;> rfl
@[simp] theorem beginRead_canCount (s : State) : (beginRead s).canCount = s.canCount := by unfold beginRead; split <;> rfl
@[simp] theorem beginRead_capacity (s : State) : (beginRead s).capacity = s.capacity := by unfold beginRead; split <;> rfl
@[simp] theorem beginRead_txValid (s : State) : (beginRead s).txValid = s.txValid := by unfold beginRead; split <;> rfl
@[simp] theorem beginRead_txData (s : State) : (beginRead s).txData = s.txData := by unfold beginRead; split <;> rfl
@[simp] theorem beginRead_rxPop (s : State) : (beginRead s).rxPop = s.rxPop := by unfold beginRead; split <;> rfl
@[simp] theorem beginRead_bufWe (s : State) : (beginRead s).bufWe = s.bufWe := by unfold beginRead; split <;> rfl
@[simp] theorem beginRead_bufOff (s : State) : (beginRead s).bufOff = s.bufOff := by unfold beginRead; split <;> rfl
@[simp] theorem beginRead_bufWdata (s : State) : (beginRead s).bufWdata = s.bufWdata := by unfold beginRead; split <;> rfl
@[simp] theorem beginRead_mem (s : State) : (beginRead s).mem = s.mem := by unfold beginRead; split <;> rfl
@[simp] theorem beginRead_rx (s : State) : (beginRead s).rx = s.rx := by unfold beginRead; split <;> rfl
@[simp] theorem beginRead_tx (s : State) : (beginRead s).tx = s.tx := by unfold beginRead; split <;> rfl
@[simp] theorem beginRead_inp (s : State) : (beginRead s).inp = s.inp := by unfold beginRead; split <;> rfl
@[simp] theorem beginRead_result (s : State) : (beginRead s).result = s.result := by unfold beginRead; split <;> rfl
@[simp] theorem beginRead_script (s : State) : (beginRead s).script = s.script := by unfold beginRead; split <;> rfl
@[simp] theorem beginRead_draws (s : State) : (beginRead s).draws = s.draws := by unfold beginRead; split <;> rfl

/-- A wire item as a row and back. -/
@[simp] theorem wireItem_wireInstr (w : WireItem) : wireItem? (wireInstr w) = some w := by cases w <;> rfl

/-- A row that is a wire item is that item. -/
theorem wireInstr_wireItem (i : Instr) (w : WireItem) (h : wireItem? i = some w) : wireInstr w = i := by
  cases i <;> simp [wireItem?] at h <;> subst h <;> rfl

end Sys2Proof.Machine
end

