-- ==== Sys2Proof/Laws/PerInstr.lean ====
section
/-! SUPPORT. Per-instruction facts about the syntax. Family `RoundTrip`: decoding what `encode` gives for a well-formed
instruction, in registers its class agrees with, gives the instruction back. -/

namespace Sys2Proof.Laws.RoundTrip

/-- Decode of encode of one instruction is that instruction. -/
def Statement (i : Instr) : Prop :=
  ∀ exp cks : Byte, i.wf = true → i.agrees exp cks = true → decode exp cks (encode i) = .ok i

open Sys2Proof

theorem trdArm (w : Word32) : Statement (.trdArm w) := by
  intro exp cks h _
  simp only [Instr.wf, Bool.or_eq_true, decide_eq_true_eq] at h
  rcases h with (rfl | rfl) | rfl
  · exact decode_arm exp cks .awaitStart .quiet _ rfl
  · exact decode_arm exp cks .readBlknum .quiet _ rfl
  · exact decode_arm exp cks .readBlknum .quiet _ rfl
theorem trdPoll : Statement .trdPoll := fun exp cks _ _ => decode_poll exp cks .awaitStart .quiet
theorem trdChk : Statement .trdChk := fun exp cks _ _ => decode_chk exp cks .awaitStart .quiet
theorem start (c : Nat) : Statement (.start c) := fun exp cks _ _ => decode_off exp cks .idle (.start c)
theorem loopchk : Statement .loopchk := fun exp cks _ _ => decode_off exp cks .loopCheck .quiet
theorem presend : Statement .presend := fun exp cks _ _ => decode_off exp cks .preSend .quiet
theorem flushResync (r : RdResult) : Statement (.flushResync r) := fun exp cks _ _ => by
  cases r <;> exact decode_off exp cks .flushResync _
theorem retryinc : Statement .retryinc := fun exp cks _ _ => decode_off exp cks .retryInc .quiet
theorem sendctl : Statement .sendctl := fun exp cks _ _ => decode_off exp cks .sendCtrl .quiet
theorem reject : Statement .reject := fun exp cks _ _ => decode_off exp cks .reject .quiet
theorem fail : Statement .fail := fun exp cks _ _ => decode_off exp cks .fail .quiet
theorem sendcan : Statement .sendcan := fun exp cks _ _ => decode_off exp cks .sendCan .quiet
theorem finack : Statement .finack := fun exp cks _ _ => decode_off exp cks .sendFinAck .quiet
theorem awaitTo : Statement .awaitTo := fun exp cks _ _ => decode_off exp cks .awaitStart .timeout
theorem awaitSoh : Statement .awaitSoh := fun exp cks _ _ => decode_off exp cks .awaitStart (.byte Config.soh)
theorem awaitEot : Statement .awaitEot := fun exp cks _ _ => decode_off exp cks .awaitStart (.byte Config.eot)
theorem awaitOther (b : Byte) : Statement (.awaitOther b) := by
  intro exp cks h _
  simp only [Instr.wf, Bool.and_eq_true, decide_eq_true_eq] at h
  simp only [encode, opCode, decode_off, decodeState, decodeReading, classifyAwait, if_neg h.1, if_neg h.2]
theorem blknumTo : Statement .blknumTo := fun exp cks _ _ => decode_off exp cks .readBlknum .timeout
theorem blknumDup (b : Byte) : Statement (.blknumDup b) := by
  intro exp cks _ h
  simp only [Instr.agrees, decide_eq_true_eq] at h
  simp only [encode, opCode, decode_off, decodeState, decodeReading, classifyBlknum, prevBlock]
  rw [if_pos h]
theorem blknumBad (b : Byte) : Statement (.blknumBad b) := by
  intro exp cks _ h
  simp only [Instr.agrees, Bool.and_eq_true, decide_eq_true_eq] at h
  simp only [encode, opCode, decode_off, decodeState, decodeReading, classifyBlknum, prevBlock, if_neg h.1, if_pos h.2]
theorem blknumOk (b : Byte) : Statement (.blknumOk b) := by
  intro exp cks _ h
  simp only [Instr.agrees, decide_eq_true_eq] at h
  subst h
  have hne : b ≠ b - 1#8 := by bv_omega
  simp only [encode, opCode, decode_off, decodeState, decodeReading, classifyBlknum, prevBlock, if_neg hne, ne_eq,
    not_true_eq_false, if_false]
theorem flushDup (r : RdResult) : Statement (.flushDup r) := fun exp cks _ _ => by
  cases r <;> exact decode_off exp cks .flushDup _
theorem flushDesync (r : RdResult) : Statement (.flushDesync r) := fun exp cks _ _ => by
  cases r <;> exact decode_off exp cks .flushDesync _
theorem invblkOk (b : Byte) : Statement (.invblkOk b) := by
  intro exp cks _ h
  simp only [Instr.agrees, decide_eq_true_eq] at h
  simp only [encode, opCode, decode_off, decodeState, decodeReading, classifyInvblk, inverseBlock]
  rw [if_pos h]
theorem invblkBad (b : Byte) : Statement (.invblkBad b) := by
  intro exp cks _ h
  simp only [Instr.agrees, decide_eq_true_eq] at h
  simp only [encode, opCode, decode_off, decodeState, decodeReading, classifyInvblk, inverseBlock]
  rw [if_neg h]
theorem invblkTo : Statement .invblkTo := fun exp cks _ _ => decode_off exp cks .readInvblk .timeout
theorem payloadByte (b : Byte) : Statement (.payloadByte b) := fun exp cks _ _ => decode_off exp cks .readPayload (.byte b)
theorem payloadTo : Statement .payloadTo := fun exp cks _ _ => decode_off exp cks .readPayload .timeout
theorem cksumOk (b : Byte) : Statement (.cksumOk b) := by
  intro exp cks _ h
  simp only [Instr.agrees, decide_eq_true_eq] at h
  simp only [encode, opCode, decode_off, decodeState, decodeReading, classifyCksum, if_pos h]
theorem cksumBad (b : Byte) : Statement (.cksumBad b) := by
  intro exp cks _ h
  simp only [Instr.agrees, decide_eq_true_eq] at h
  simp only [encode, opCode, decode_off, decodeState, decodeReading, classifyCksum, if_neg h]
theorem cksumTo : Statement .cksumTo := fun exp cks _ _ => decode_off exp cks .readCksum .timeout
theorem advance : Statement .advance := fun exp cks _ _ => decode_off exp cks .advance .quiet
theorem soh : Statement .soh := fun _ _ _ _ => rfl
theorem eot : Statement .eot := fun _ _ _ _ => rfl
theorem ack : Statement .ack := fun _ _ _ _ => rfl
theorem nak : Statement .nak := fun _ _ _ _ => rfl
theorem can : Statement .can := fun _ _ _ _ => rfl
theorem dataFrame (blk inv : Byte) (data : List Byte) (cks' : Byte) : Statement (.dataFrame blk inv data cks') := by
  intro exp cks h _
  simp only [Instr.wf, frameWf, Bool.and_eq_true, decide_eq_true_eq] at h
  obtain ⟨⟨hl, hi⟩, hc⟩ := h
  have := decodeDataFrame_bytes blk inv cks' data hl
  simpa [encode, decode, decodeFrame, frameBytes, hi, hc, inverseBlock] using this
theorem eotFrame : Statement .eotFrame := fun _ _ _ _ => rfl
theorem canSequence : Statement .canSequence := fun _ _ _ _ => rfl

end Sys2Proof.Laws.RoundTrip
end

