-- ==== Sys2Proof/Laws/Step.lean ====
section
/-! SUPPORT. The step, said once: what a block cycle does, what selects each operation (`Selects`), and everything a step
can do (`Moved`), so that no later proof unfolds `step` or the decoder. -/

namespace Sys2Proof.Machine

/-- No timed read in progress: `st` and the event decide. -/
theorem fetch_off (s : State) (h : s.tst = .off) :
    fetch s = decodeState s.expectedBlockNumber s.checksum (eventOf s) s.st := by
  unfold fetch fetchWord; rw [h]; exact decode_off _ _ _ _

/-- In a control state the event is quiet. -/
theorem fetch_control (s : State) (h : s.tst = .off) (hr : s.result = none) (hst : atRest s.st = false) :
    fetch s = decodeState s.expectedBlockNumber s.checksum .quiet s.st := by
  rw [fetch_off s h]; simp [eventOf, hst, hr]

/-- In a reading state the event is the result of the timed read. -/
theorem fetch_reading (s : State) (r : RdResult) (h : s.tst = .off) (hr : s.result = some r) (hst : atRest s.st = false) :
    fetch s = decodeState s.expectedBlockNumber s.checksum r.event s.st := by
  rw [fetch_off s h]; simp [eventOf, hst, hr]

/-- A move that stands in the script is the one made. -/
theorem step_event (s : State) (e : Event) (es : List Event) (hs : s.script = e :: es) :
    step s = stepEvent e { s with script := es } := by
  simp [step, nextEvent, hs]

/-- A block cycle without `rst`. -/
theorem blockCycle_runs (inp : Inputs) (s : State) (h : inp.rst = false) :
    blockCycle inp s = (match fetch (cycleState inp s) with
      | .ok i => exec i (cycleState inp s)
      | .error .atRest => .next (cycleState inp s)
      | .error _ => .fault .unlistedSelection) := by
  simp only [blockCycle, h]; rfl

/-- A block cycle that begins a timed read. -/
theorem cycleState_arms (s : State) (inp : Inputs) (hw : reading s.st = true) (ht : s.tst = .off) (hr : s.result = none) :
    cycleState inp s = { s with tst := .arm, inp := inp, txValid := false, rxPop := false, bufWe := false } := by
  unfold cycleState; rw [beginRead_arms]
  · rfl
  · simpa
  · simpa
  · simpa

/-- A block cycle that does not. -/
theorem cycleState_idle (s : State) (inp : Inputs) (h : reading s.st = false ∨ s.tst ≠ .off ∨ s.result ≠ none) :
    cycleState inp s = beginCycle inp s := by
  unfold cycleState; rw [beginRead_idle]; simpa

/-- One step of a run. -/
theorem run_step (n : Nat) (s t : State) (h : step s = .next t) : run (n + 1) s = run n t := by
  simp [run, h]

/-- The next move is made in the state itself, but for the script and the counter of free values. -/
theorem nextEvent_state (s : State) : ∃ es n, (nextEvent s).2 = { s with script := es, draws := n } := by
  unfold nextEvent; split
  · exact ⟨_, s.draws, rfl⟩
  · exact ⟨s.script, _, rfl⟩

/-- What selects each operation (R91 to R96, R103). -/
def Selects (s : State) : Instr → Prop
  | .trdArm w => s.tst = .arm ∧ s.st.timeout = some w
  | .trdPoll => s.tst = .poll
  | .trdChk => s.tst = .chk
  | .start c => s.tst = .off ∧ atRest s.st = true ∧ s.inp.start = true ∧ s.inp.capacityIn = c
  | .loopchk => s.tst = .off ∧ s.st = .loopCheck ∧ s.result = none
  | .presend => s.tst = .off ∧ s.st = .preSend ∧ s.result = none
  | .flushResync r => s.tst = .off ∧ s.st = .flushResync ∧ s.result = some r
  | .retryinc => s.tst = .off ∧ s.st = .retryInc ∧ s.result = none
  | .sendctl => s.tst = .off ∧ s.st = .sendCtrl ∧ s.result = none
  | .reject => s.tst = .off ∧ s.st = .reject ∧ s.result = none
  | .fail => s.tst = .off ∧ s.st = .fail ∧ s.result = none
  | .sendcan => s.tst = .off ∧ s.st = .sendCan ∧ s.result = none
  | .finack => s.tst = .off ∧ s.st = .sendFinAck ∧ s.result = none
  | .advance => s.tst = .off ∧ s.st = .advance ∧ s.result = none
  | .awaitTo => s.tst = .off ∧ s.st = .awaitStart ∧ s.result = some .timeout
  | .awaitSoh => s.tst = .off ∧ s.st = .awaitStart ∧ s.result = some (.byte Config.soh)
  | .awaitEot => s.tst = .off ∧ s.st = .awaitStart ∧ s.result = some (.byte Config.eot)
  | .awaitOther b =>
    s.tst = .off ∧ s.st = .awaitStart ∧ s.result = some (.byte b) ∧ b ≠ Config.soh ∧ b ≠ Config.eot
  | .blknumTo => s.tst = .off ∧ s.st = .readBlknum ∧ s.result = some .timeout
  | .blknumDup b =>
    s.tst = .off ∧ s.st = .readBlknum ∧ s.result = some (.byte b) ∧ b = prevBlock s.expectedBlockNumber
  | .blknumBad b =>
    s.tst = .off ∧ s.st = .readBlknum ∧ s.result = some (.byte b) ∧ b ≠ prevBlock s.expectedBlockNumber ∧
      b ≠ s.expectedBlockNumber
  | .blknumOk b => s.tst = .off ∧ s.st = .readBlknum ∧ s.result = some (.byte b) ∧ b = s.expectedBlockNumber
  | .flushDup r => s.tst = .off ∧ s.st = .flushDup ∧ s.result = some r
  | .flushDesync r => s.tst = .off ∧ s.st = .flushDesync ∧ s.result = some r
  | .invblkOk b =>
    s.tst = .off ∧ s.st = .readInvblk ∧ s.result = some (.byte b) ∧ b = inverseBlock s.expectedBlockNumber
  | .invblkBad b =>
    s.tst = .off ∧ s.st = .readInvblk ∧ s.result = some (.byte b) ∧ b ≠ inverseBlock s.expectedBlockNumber
  | .invblkTo => s.tst = .off ∧ s.st = .readInvblk ∧ s.result = some .timeout
  | .payloadByte b => s.tst = .off ∧ s.st = .readPayload ∧ s.result = some (.byte b)
  | .payloadTo => s.tst = .off ∧ s.st = .readPayload ∧ s.result = some .timeout
  | .cksumOk b => s.tst = .off ∧ s.st = .readCksum ∧ s.result = some (.byte b) ∧ b = s.checksum
  | .cksumBad b => s.tst = .off ∧ s.st = .readCksum ∧ s.result = some (.byte b) ∧ b ≠ s.checksum
  | .cksumTo => s.tst = .off ∧ s.st = .readCksum ∧ s.result = some .timeout
  | .soh | .eot | .ack | .nak | .can | .dataFrame _ _ _ _ | .eotFrame | .canSequence => False

theorem ok_inj {a b : Instr} (h : (Except.ok a : Except DecodeError Instr) = .ok b) : a = b := by injection h

/-- The decoder selects an operation only in its own case. -/
theorem fetch_selects (s : State) (i : Instr) (h : fetch s = .ok i) : Selects s i := by
  unfold fetch fetchWord at h
  cases ht : s.tst with
  | arm =>
    rw [ht] at h
    cases hw : s.st.timeout with
    | none => simp [decode, decodeOp, hw] at h
    | some w => rw [decode_arm _ _ _ _ w hw] at h; cases ok_inj h; exact ⟨ht, hw⟩
  | poll => rw [ht, decode_poll] at h; cases ok_inj h; exact ht
  | chk => rw [ht, decode_chk] at h; cases ok_inj h; exact ht
  | off =>
    rw [ht, decode_off] at h
    cases hst : s.st with
    | idle | done | failed =>
      simp only [hst, eventOf, atRest, if_true] at h
      cases hp : s.inp.start <;> simp [hp, decodeState, decodeRest] at h
      subst h; exact ⟨ht, by rw [hst]; rfl, hp, rfl⟩
    | loopCheck | preSend | retryInc | sendCtrl | advance | reject | fail | sendCan | sendFinAck =>
      rcases hr : s.result with _ | (b | _) <;> simp [hst, eventOf, atRest, hr, RdResult.event, decodeState, decodeControl] at h
      subst h; exact ⟨ht, hst, hr⟩
    | flushResync | flushDup | flushDesync | readPayload =>
      rcases hr : s.result with _ | (b | _) <;>
        simp [hst, eventOf, atRest, hr, RdResult.event, decodeState, decodeReading, classifyPayload] at h
      all_goals (subst h; exact ⟨ht, hst, hr⟩)
    | awaitStart =>
      rcases hr : s.result with _ | (b | _) <;>
        simp [hst, eventOf, atRest, hr, RdResult.event, decodeState, decodeReading, classifyAwait] at h
      · split at h
        · subst h; rename_i hb; exact ⟨ht, hst, by rw [hr, hb]⟩
        · split at h
          · subst h; rename_i hb; exact ⟨ht, hst, by rw [hr, hb]⟩
          · subst h; rename_i h1 h2; exact ⟨ht, hst, hr, h1, h2⟩
      · subst h; exact ⟨ht, hst, hr⟩
    | readBlknum =>
      rcases hr : s.result with _ | (b | _) <;>
        simp only [hst, eventOf, atRest, hr, RdResult.event, decodeState, decodeReading, classifyBlknum] at h
      · cases h
      · have h := ok_inj h
        split at h
        · subst h; exact ⟨ht, hst, hr, ‹_›⟩
        · split at h
          · subst h; exact ⟨ht, hst, hr, ‹_›, ‹_›⟩
          · subst h; rename_i h2; exact ⟨ht, hst, hr, by simpa using h2⟩
      · cases ok_inj h; exact ⟨ht, hst, hr⟩
    | readInvblk =>
      rcases hr : s.result with _ | (b | _) <;>
        simp only [hst, eventOf, atRest, hr, RdResult.event, decodeState, decodeReading, classifyInvblk] at h
      · cases h
      · have h := ok_inj h
        split at h <;> (subst h; exact ⟨ht, hst, hr, ‹_›⟩)
      · cases ok_inj h; exact ⟨ht, hst, hr⟩
    | readCksum =>
      rcases hr : s.result with _ | (b | _) <;>
        simp only [hst, eventOf, atRest, hr, RdResult.event, decodeState, decodeReading, classifyCksum] at h
      · cases h
      · have h := ok_inj h
        split at h <;> (subst h; exact ⟨ht, hst, hr, ‹_›⟩)
      · cases ok_inj h; exact ⟨ht, hst, hr⟩

/-- Everything a move can do: the state `u` in which it is made, the move, the state after it. -/
inductive Moved (u : State) : Event → State → Prop
  | rst (inp : Inputs) : inp.rst = true → Moved u (.cycle inp) (hardReset (beginCycle inp u))
  | op (inp : Inputs) (i : Instr) (t : State) : inp.rst = false → Selects (cycleState inp u) i →
      exec i (cycleState inp u) = .next t → Moved u (.cycle inp) t
  | rest (inp : Inputs) : inp.rst = false → fetch (cycleState inp u) = .error .atRest →
      Moved u (.cycle inp) (cycleState inp u)
  | arrive (b : Byte) : Moved u (.arrive b) (receive [b] u)
  | lose (k : Nat) : Moved u (.lose k) { u with rx := u.rx.eraseIdx (k + 1) }
  | wire (w : WireItem) (t : State) : (writtenItem w = false ∨ busy u = false) → exec (wireInstr w) u = .next t →
      Moved u (.wire w) t
  | take : busy u = false → Moved u .hostTake { u with rx := u.rx.tail }
  | read (off : Nat) : busy u = false → Moved u (.hostRead off) u
  | write (b : Byte) : busy u = false → Moved u (.hostWrite b) (transmit [b] u)
  | store (off : Nat) (b : Byte) : busy u = false → Moved u (.hostStore off b) { u with mem := Memory.write u.mem off b }

theorem next_inj {a b : State} (h : (Host.Outcome.next a : Result) = .next b) : a = b := by injection h

/-- A move of the host. -/
theorem whileAtRest_next {u v t : State} (h : whileAtRest u v = .next t) : busy u = false ∧ t = v := by
  unfold whileAtRest at h
  split at h
  · cases h
  · rename_i hn; exact ⟨by simpa using hn, (next_inj h).symm⟩

theorem stepEvent_moved (e : Event) (u t : State) (h : stepEvent e u = .next t) : Moved u e t := by
  cases e with
  | cycle inp =>
    simp only [stepEvent] at h
    cases hr : inp.rst with
    | true => simp only [blockCycle, hr, if_true] at h; cases next_inj h; exact .rst inp hr
    | false =>
      rw [blockCycle_runs _ _ hr] at h
      cases hf : fetch (cycleState inp u) with
      | error e =>
        rw [hf] at h
        cases e <;> simp at h
        subst h; exact .rest inp hr hf
      | ok i => rw [hf] at h; exact .op inp i t hr (fetch_selects _ _ hf) h
  | arrive b => cases next_inj h; exact .arrive b
  | lose k => cases next_inj h; exact .lose k
  | wire w =>
    simp only [stepEvent] at h
    split at h
    · cases h
    · rename_i hn
      refine .wire w t ?_ h
      cases hw : writtenItem w <;> cases hb : busy u <;> simp_all
  | hostTake => obtain ⟨hb, rfl⟩ := whileAtRest_next h; exact .take hb
  | hostRead off => obtain ⟨hb, rfl⟩ := whileAtRest_next h; exact .read off hb
  | hostWrite b => obtain ⟨hb, rfl⟩ := whileAtRest_next h; exact .write b hb
  | hostStore off b => obtain ⟨hb, rfl⟩ := whileAtRest_next h; exact .store off b hb

/-- Everything a step can do. -/
theorem step_moved (s t : State) (h : step s = .next t) :
    ∃ es n, Moved { s with script := es, draws := n } (nextEvent s).1 t := by
  obtain ⟨es, n, hu⟩ := nextEvent_state s
  exact ⟨es, n, by rw [← hu]; exact stepEvent_moved _ _ _ h⟩

/-- The invariant says nothing about what the agents will do. -/
theorem State.Inv.script {s : State} (h : s.Inv) (es : List Event) : ({ s with script := es } : State).Inv :=
  ⟨h.tst_reading, h.result_reading, h.byte_index, h.byte_index_le, h.length_le, h.headroom, h.whole_blocks, h.block_number,
    h.pending_ack, h.pending_nak, h.retry_le, h.retry_pos, h.error_failure, h.error_timeout, h.buffer_full, h.can_count,
    h.tx_port, h.tx_byte, h.mem_wf⟩

end Sys2Proof.Machine
end

