-- ==== Sys2Proof/Tests/Slice0.lean ====
section
/-! SUPPORT. Tests of the model: the well-formedness checks, the decoder on words written out from spec/30_encoding.md,
spec/10_state.md and spec/opcode_table.json, single steps with the values of spec/95_test_vectors.md (V-…), and for
every statement with hypotheses a witness that meets them. -/

namespace Sys2Proof.Tests

open Sys2Proof Sys2Proof.Machine

/-- A field of the next state. -/
def look {α : Type} (r : Result) (f : State → α) : Option α :=
  match r with
  | .next t => some (f t)
  | .fault _ => none
  | .refused _ => none

/-- The reset state in another control state. -/
def inState (st : St) : State := { State.reset with st := st }

/-- The reset state in a reading state, the result of its timed read waiting. -/
def withResult (st : St) (r : RdResult) : State := { inState st with result := some r }

/-- A cycle with nothing on the ports, one with `tx_ready`, one with the clock at `t`. -/
def quiet : Event := .cycle quietInputs
def readyIn : Inputs := { quietInputs with txReady := true }
def clockIn (t : Word32) : Inputs := { quietInputs with now := t }

/-! ## WellFormed: every check refuses an ill-formed term -/

theorem test_wf_timeout_operand : (Instr.trdArm 5#32).wf = false := by decide
theorem test_wf_capacity_width : (Instr.start (2 ^ Config.lenW)).wf = false := by simp [Instr.wf]
theorem test_wf_other_is_not_soh : (Instr.awaitOther 0x01#8).wf = false := by decide
theorem test_wf_other_is_not_eot : (Instr.awaitOther 0x04#8).wf = false := by decide
theorem test_wf_frame_length : (Instr.dataFrame 1#8 0xFE#8 [0xAA#8] 0xAA#8).wf = false := by decide
set_option maxRecDepth 10000 in
theorem test_wf_frame_inverse : frameWf 1#8 0xFD#8 (fillData 0#8) 0#8 = false := by rfl
set_option maxRecDepth 10000 in
theorem test_wf_frame_checksum : frameWf 1#8 0xFE#8 (fillData 0#8) 1#8 = false := by rfl
set_option maxRecDepth 10000 in
theorem test_wf_frame_right : (Instr.dataFrame 1#8 0xFE#8 (fillData 0xAA#8) 0x00#8).wf = true := by rfl
theorem test_agrees_refuses :
    (Instr.blknumDup 1#8).agrees 1#8 0#8 = false ∧ (Instr.blknumBad 0#8).agrees 1#8 0#8 = false ∧
    (Instr.blknumBad 1#8).agrees 1#8 0#8 = false ∧ (Instr.blknumOk 2#8).agrees 1#8 0#8 = false ∧
    (Instr.invblkOk 1#8).agrees 1#8 0#8 = false ∧ (Instr.invblkBad 0xFE#8).agrees 1#8 0#8 = false ∧
    (Instr.cksumOk 1#8).agrees 1#8 0#8 = false ∧ (Instr.cksumBad 0#8).agrees 1#8 0#8 = false := by decide

/-! ## Decode: every constructor by a word written out (R20, R22, R91 to R96, R103, R80 to R84) -/

/-- `expected_block_number` 2, `checksum` 0x80. -/
def dec (st : BitVec 5) (tst : BitVec 2) (e : OpEvent) : Except DecodeError Instr := decode 2#8 0x80#8 (.op ⟨st, tst, e⟩)

theorem test_decode_timed_read :
    dec 0b00110#5 0b01#2 .quiet = .ok (.trdArm 3000000#32) ∧ dec 0b01000#5 0b01#2 .quiet = .ok (.trdArm 250000#32) ∧
    dec 0b00111#5 0b10#2 .quiet = .ok .trdPoll ∧ dec 0b01100#5 0b11#2 .quiet = .ok .trdChk := by decide

theorem test_decode_session_control :
    dec 0b00000#5 0b00#2 (.start 256) = .ok (.start 256) ∧ dec 0b10011#5 0b00#2 (.start 384) = .ok (.start 384) ∧
    dec 0b00001#5 0b00#2 .quiet = .ok .loopchk ∧ dec 0b00010#5 0b00#2 .quiet = .ok .presend ∧
    dec 0b00011#5 0b00#2 .timeout = .ok (.flushResync .timeout) ∧
    dec 0b00011#5 0b00#2 (.byte 0x43#8) = .ok (.flushResync (.byte 0x43#8)) ∧
    dec 0b00100#5 0b00#2 .quiet = .ok .retryinc ∧ dec 0b00101#5 0b00#2 .quiet = .ok .sendctl ∧
    dec 0b01110#5 0b00#2 .quiet = .ok .reject ∧ dec 0b01111#5 0b00#2 .quiet = .ok .fail ∧
    dec 0b10000#5 0b00#2 .quiet = .ok .sendcan ∧ dec 0b10001#5 0b00#2 .quiet = .ok .finack := by decide

theorem test_decode_await_and_block_number :
    dec 0b00110#5 0b00#2 .timeout = .ok .awaitTo ∧ dec 0b00110#5 0b00#2 (.byte 0b00000001#8) = .ok .awaitSoh ∧
    dec 0b00110#5 0b00#2 (.byte 0b00000100#8) = .ok .awaitEot ∧
    dec 0b00110#5 0b00#2 (.byte 0x43#8) = .ok (.awaitOther 0x43#8) ∧
    dec 0b00111#5 0b00#2 .timeout = .ok .blknumTo ∧ dec 0b00111#5 0b00#2 (.byte 1#8) = .ok (.blknumDup 1#8) ∧
    dec 0b00111#5 0b00#2 (.byte 3#8) = .ok (.blknumBad 3#8) ∧ dec 0b00111#5 0b00#2 (.byte 2#8) = .ok (.blknumOk 2#8) ∧
    dec 0b01000#5 0b00#2 (.byte 0x04#8) = .ok (.flushDup (.byte 0x04#8)) ∧
    dec 0b01001#5 0b00#2 .timeout = .ok (.flushDesync .timeout) := by decide

theorem test_decode_rest_of_the_frame :
    dec 0b01010#5 0b00#2 (.byte 0xFD#8) = .ok (.invblkOk 0xFD#8) ∧
    dec 0b01010#5 0b00#2 (.byte 2#8) = .ok (.invblkBad 2#8) ∧ dec 0b01010#5 0b00#2 .timeout = .ok .invblkTo ∧
    dec 0b01011#5 0b00#2 (.byte 0x04#8) = .ok (.payloadByte 0x04#8) ∧ dec 0b01011#5 0b00#2 .timeout = .ok .payloadTo ∧
    dec 0b01100#5 0b00#2 (.byte 0x80#8) = .ok (.cksumOk 0x80#8) ∧
    dec 0b01100#5 0b00#2 (.byte 0x7F#8) = .ok (.cksumBad 0x7F#8) ∧ dec 0b01100#5 0b00#2 .timeout = .ok .cksumTo ∧
    dec 0b01101#5 0b00#2 .quiet = .ok .advance := by decide

theorem test_decode_wire :
    decode 1#8 0#8 (.const 0b00000001#8) = .ok .soh ∧ decode 1#8 0#8 (.const 0b00000100#8) = .ok .eot ∧
    decode 1#8 0#8 (.const 0b00000110#8) = .ok .ack ∧ decode 1#8 0#8 (.const 0b00010101#8) = .ok .nak ∧
    decode 1#8 0#8 (.const 0b00011000#8) = .ok .can ∧ decode 1#8 0#8 (.frame [0b00000100#8]) = .ok .eotFrame ∧
    decode 1#8 0#8 (.frame [0b00011000#8, 0b00011000#8, 0b00011000#8]) = .ok .canSequence := by decide

set_option maxRecDepth 10000 in
/-- `FRAME(1, FILL(AA))` of P1: `01 01 FE AA*128 00`. -/
theorem test_decode_data_frame :
    decode 1#8 0#8 (.frame (0x01#8 :: 0x01#8 :: 0xFE#8 :: (fillData 0xAA#8 ++ [0x00#8]))) =
      .ok (.dataFrame 0x01#8 0xFE#8 (fillData 0xAA#8) 0x00#8) := by rfl

/-- R22, R98, R100, R101, R144, R145, R148: what selects nothing. -/
theorem test_decode_rejects :
    dec 20#5 0#2 .quiet = .error .reservedState ∧ dec 31#5 2#2 .quiet = .error .reservedState ∧
    dec 0#5 1#2 .quiet = .error .noTimeoutInState ∧ dec 18#5 0#2 .quiet = .error .atRest ∧
    dec 11#5 0#2 .quiet = .error .readNotBegun ∧ dec 1#5 0#2 (.start 256) = .error .startWhileBusy ∧
    dec 5#5 0#2 (.byte 1#8) = .error .resultNotAwaited ∧ decode 1#8 0#8 (.const 0x43#8) = .error .notAConstant ∧
    decode 1#8 0#8 (.frame [0x15#8]) = .error .frameStart ∧ decode 1#8 0#8 (.frame [0x18#8]) = .error .frameLength ∧
    decode 1#8 0#8 (.frame [0x01#8, 0x01#8]) = .error .frameLength := by decide

set_option maxRecDepth 10000 in
theorem test_decode_rejects_frames :
    decodeDataFrame (1#8 :: 0xFF#8 :: (fillData 0#8 ++ [0#8])) = .error .frameInverse ∧
    decodeDataFrame (1#8 :: 0xFE#8 :: (fillData 0#8 ++ [1#8])) = .error .frameChecksum := ⟨rfl, rfl⟩

/-- The rows with a mask and a match, and the frames of fixed bytes, from the table. -/
theorem test_table_words :
    decodeTableWord 8 0x01 = some .awaitSoh ∧ decodeTableWord 8 0x04 = some .awaitEot ∧
    decodeTableWord 8 0x00 = some (.payloadByte 0#8) ∧ decodeTableWord 8 0x06 = some .ack ∧
    decodeTableWord 8 0x15 = some .nak ∧ decodeTableWord 8 0x18 = some .can ∧
    decodeTableWord 24 0x181818 = some .canSequence ∧ decodeTableWord 16 0x1818 = none := by decide

theorem test_step_runs_the_table_word :
    look (step (State.reset.withFetchWord 8 0x01)) State.st = some .readBlknum ∧
    look (step (State.reset.withFetchWord 8 0x04)) State.st = some .sendFinAck ∧
    look (step (State.reset.withFetchWord 8 0x00)) State.mem = some [(0, 0#8)] ∧
    look (step (State.reset.withFetchWord 8 0x15)) State.tx = some [0x15#8] ∧
    look (step (State.reset.withFetchWord 24 0x181818)) State.tx = some [0x18#8, 0x18#8, 0x18#8] := by decide

/-! ## Arithmetic (V-A) -/

theorem test_block_numbers :
    prevBlock 0#8 = 255#8 ∧ nextBlock 255#8 = 0#8 ∧ inverseBlock 1#8 = 0xFE#8 ∧ inverseBlock 0x80#8 = 0x7F#8 ∧
    addChecksum 0xF0#8 0x20#8 = 0x10#8 := by decide
set_option maxRecDepth 10000 in
theorem test_checksums :
    sumBytes (fillData 0xAA#8) = 0x00#8 ∧ sumBytes (fillData 0xBB#8) = 0x80#8 ∧ sumBytes rampData = 0xC0#8 ∧
    sumBytes (fillData 0xFF#8) = 0x80#8 := ⟨rfl, rfl, rfl, rfl⟩
theorem test_headroom :
    headroom 128 256 = true ∧ headroom 256 256 = false ∧ headroom 0 127 = false ∧ headroom 128 383 = true ∧
    headroom 256 383 = false := by decide

/-! ## Timed read (V-T) -/

theorem test_trdArm_wraps :
    look (exec (.trdArm 3000000#32) ((inState .awaitStart).atTime 0xFFFFFFFF#32)) State.deadline = some 0x002DC6BF#32 ∧
    look (exec (.trdArm 250000#32) ((inState .readBlknum).atTime 0xFFFFFF00#32)) State.deadline = some 0x0003CF90#32 := by
  decide
theorem test_trdPoll_takes_the_oldest :
    look (exec .trdPoll { inState .awaitStart with tst := .poll, rx := [0x01#8, 0x04#8] })
      (fun t => (t.result, t.rx, t.tst)) = some (some (.byte 0x01#8), [0x04#8], .off) := by decide
theorem test_trdChk_before_and_at_the_deadline :
    look (exec .trdChk ({ State.reset with deadline := 0x0003D090#32 }.atTime 0x0003D08F#32)) State.tst = some .poll ∧
    look (exec .trdChk ({ State.reset with deadline := 0x0003D090#32 }.atTime 0x0003D090#32)) State.result =
      some (some .timeout) := by decide
theorem test_trdChk_wraps :
    look (exec .trdChk ({ State.reset with deadline := 0x0003CF90#32 }.atTime 0xFFFFFFFF#32)) State.tst = some .poll ∧
    look (exec .trdChk ({ State.reset with deadline := 0x0003D090#32 }.atTime 0x8003D090#32)) State.tst = some .poll := by
  decide

/-! ## Session control (V-S) -/

theorem test_start_after_a_failed_run :
    look (exec (.start 384) { inState .failed with length := 128, retryCount := 11#4, lastError := .timeout, canCount := 3#2 })
      (fun t => (t.capacity, t.length, t.retryCount, t.lastError, t.canCount)) = some (384, 0, 0#4, .none, 0#2) := by decide
theorem test_loopchk_last_block :
    look (exec .loopchk { inState .loopCheck with length := 128, capacity := 256 }) State.st = some .preSend ∧
    look (exec .loopchk { inState .loopCheck with length := 256, capacity := 256 }) State.st = some .fail := by decide
theorem test_presend :
    look (exec .presend { inState .preSend with pendingAck := 0x06#8, retryCount := 1#4 })
      (fun t => (t.retryCount, t.st)) = some (0#4, .retryInc) ∧
    look (exec .presend { inState .preSend with retryCount := 4#4 })
      (fun t => (t.retryCount, t.st)) = some (4#4, .flushResync) := by decide
theorem test_flushResync :
    look (exec (.flushResync (.byte 0x43#8)) (withResult .flushResync (.byte 0x43#8))) State.st = some .flushResync ∧
    look (exec (.flushResync .timeout) (withResult .flushResync .timeout)) State.st = some .retryInc := by decide
theorem test_retryinc_ceiling :
    look (exec .retryinc { inState .retryInc with retryCount := 9#4 }) (fun t => (t.retryCount, t.st)) =
      some (10#4, .sendCtrl) ∧
    look (exec .retryinc { inState .retryInc with retryCount := 10#4 }) (fun t => (t.retryCount, t.lastError, t.st)) =
      some (11#4, .timeout, .fail) := by decide
theorem test_sendctl :
    look (exec .sendctl { inState .sendCtrl with pendingAck := 0x06#8, inp := readyIn }) (fun t => (t.tx, t.pendingAck)) =
      some ([0x06#8], 0x15#8) ∧
    look (exec .sendctl { inState .sendCtrl with pendingAck := 0x06#8 }) (fun t => (t.tx, t.txValid, t.st)) =
      some ([], true, .sendCtrl) := by decide
theorem test_reject : look (exec .reject { inState .reject with length := 133, byteIndex := 5#8 })
    (fun t => (t.length, t.byteIndex)) = some (128, 0#8) := by decide
theorem test_fail : look (exec .fail { inState .fail with lastError := .block }) (fun t => (t.st, t.lastError)) =
    some (.sendCan, .block) := by decide
theorem test_sendcan :
    look (exec .sendcan { inState .sendCan with inp := readyIn }) (fun t => (t.canCount, t.st)) = some (1#2, .sendCan) ∧
    look (exec .sendcan { inState .sendCan with canCount := 2#2, inp := readyIn }) (fun t => (t.st, done t, ok t)) =
      some (.failed, true, false) := by decide
theorem test_finack : look (exec .finack { inState .sendFinAck with length := 256, inp := readyIn })
    (fun t => (t.tx, ok t, resultLen t)) = some ([0x06#8], true, 256) := by decide

/-! ## Frame parser (V-F) -/

theorem test_await :
    look (exec .awaitTo (inState .awaitStart)) State.st = some .reject ∧
    look (exec .awaitSoh (inState .awaitStart)) State.st = some .readBlknum ∧
    look (exec .awaitEot (inState .awaitStart)) State.st = some .sendFinAck ∧
    look (exec (.awaitOther 0x18#8) (inState .awaitStart)) State.st = some .reject := by decide
theorem test_block_number_states :
    look (exec .blknumTo (inState .readBlknum)) State.st = some .reject ∧
    look (exec (.blknumDup 0#8) (inState .readBlknum)) State.st = some .flushDup ∧
    look (exec (.blknumBad 2#8) (inState .readBlknum)) State.st = some .flushDesync ∧
    look (exec (.blknumOk 1#8) (inState .readBlknum)) State.st = some .readInvblk := by decide
theorem test_flushes_end :
    look (exec (.flushDup .timeout) (withResult .flushDup .timeout)) (fun t => (t.pendingAck, t.st)) =
      some (0x06#8, .loopCheck) ∧
    look (exec (.flushDesync .timeout) (withResult .flushDesync .timeout)) (fun t => (t.lastError, t.st)) =
      some (.block, .fail) := by decide
theorem test_invblk :
    look (exec (.invblkOk 0xFE#8) { inState .readInvblk with checksum := 7#8 }) (fun t => (t.checksum, t.st)) =
      some (0#8, .readPayload) ∧
    look (exec (.invblkBad 1#8) (inState .readInvblk)) State.st = some .reject ∧
    look (exec .invblkTo (inState .readInvblk)) State.st = some .reject := by decide
theorem test_payloadByte :
    look (exec (.payloadByte 0x20#8) { inState .readPayload with length := 128, checksum := 0xF0#8 })
      (fun t => (t.mem, t.length, t.checksum, t.st)) = some ([(128, 0x20#8)], 129, 0x10#8, .readPayload) ∧
    look (exec (.payloadByte 0#8) { inState .readPayload with length := 255, byteIndex := 127#8 })
      (fun t => (t.byteIndex, t.st)) = some (128#8, .readCksum) := by decide
theorem test_payloadTo : look (exec .payloadTo { inState .readPayload with length := 5, byteIndex := 5#8 })
    (fun t => (t.length, t.byteIndex, t.st)) = some (5, 5#8, .reject) := by decide
theorem test_cksum :
    look (exec (.cksumOk 0#8) (inState .readCksum)) State.st = some .advance ∧
    look (exec (.cksumBad 1#8) (inState .readCksum)) State.st = some .reject ∧
    look (exec .cksumTo (inState .readCksum)) State.st = some .reject := by decide
theorem test_advance_wraps :
    look (exec .advance { inState .advance with expectedBlockNumber := 255#8, byteIndex := 128#8 })
      (fun t => (t.expectedBlockNumber, t.pendingAck, t.byteIndex)) = some (0#8, 0x06#8, 0#8) := by decide

/-! ## Wire items and the other moves -/

theorem test_wire_items :
    look (exec .soh State.reset) State.rx = some [0x01#8] ∧ look (exec .eot State.reset) State.rx = some [0x04#8] ∧
    look (exec .eotFrame { State.reset with rx := [0x43#8] }) State.rx = some [0x43#8, 0x04#8] ∧
    look (exec .ack { State.reset with tx := [0x15#8] }) State.tx = some [0x15#8, 0x06#8] ∧
    look (exec .can State.reset) State.tx = some [0x18#8] := by decide
theorem test_data_frame_has_132_bytes :
    look (exec (.dataFrame 1#8 0xFE#8 (fillData 0xAA#8) 0#8) State.reset) (fun t => t.rx.length) = some 132 := by rfl
theorem test_reset_while_writing :
    look (step { inState .sendCan with canCount := 2#2, length := 128, script := [.cycle { quietInputs with rst := true }] })
      (fun t => (t.st, t.canCount, t.length, t.txValid)) = some (.idle, 0#2, 0, false) := by decide
theorem test_selection_that_cannot_occur :
    step { State.reset with tst := .arm, script := [quiet] } = .fault .unlistedSelection := by rfl
/-- R38: an accepted write shows `tx_valid` and `tx_ready` both 1, and `tx_valid` drops in the next cycle. -/
theorem test_tx_port_handshake :
    look (run 1 { inState .sendFinAck with script := [.cycle readyIn] }) (fun t => (t.txValid, t.inp.txReady, t.txData, t.tx)) =
      some (true, true, 0x06#8, [0x06#8]) ∧
    look (run 2 { inState .sendFinAck with script := [.cycle readyIn, .cycle readyIn] }) (fun t => (t.txValid, t.tx)) =
      some (false, [0x06#8]) := by decide
/-- D14: the presented byte is not withdrawn; U6: the host reads the buffer at rest only. -/
theorem test_channel_and_host_moves :
    look (step { inState .readPayload with rx := [1#8, 2#8, 3#8], script := [.lose 0] }) State.rx = some [1#8, 3#8] ∧
    look (step { inState .readPayload with script := [.hostRead 0] }) State.rx = none := by decide
theorem test_memory_keeps_its_form :
    Memory.write [(1, 1#8), (3, 3#8)] 2 2#8 = [(1, 1#8), (2, 2#8), (3, 3#8)] ∧
    Memory.write [(1, 1#8), (3, 3#8)] 3 9#8 = [(1, 1#8), (3, 9#8)] ∧ Memory.wf [(3, 0#8), (1, 0#8)] = false := by decide
/-- R137: after START the block flushes, writes the first `NAK` and waits for a start byte (V-S33). -/
theorem test_big_step_start : (runScript 7 [.timeout] { inState .loopCheck with capacity := 128 }).2 =
    [.flushRead .timeout, .write 0x15#8, .longRead .timeout] := by decide
/-- V-S31: no capacity, nothing read, three `CAN` and `=> ERR(0)`. -/
theorem test_trace_of_a_failed_run : (runScript 6 [] (inState .loopCheck)).2 =
    [.write 0x18#8, .write 0x18#8, .write 0x18#8, .err 0#2] := by decide
/-- The end of P1, `L<04 >06 => OK(256)`; and the store of a payload read is implied, `S<04` (R102, V-F22). -/
theorem test_trace_of_a_good_end :
    (runScript 3 [.byte 0x04#8] { inState .awaitStart with length := 256 }).2 =
      [.longRead (.byte 0x04#8), .write 0x06#8, .ok 256] ∧
    (runScript 1 [.byte 0x04#8] (inState .readPayload)).2 = [.shortRead (.byte 0x04#8)] := by decide

/-! ## Witnesses: for every statement with hypotheses, states and operands that meet them -/

/-- A timed read about to begin, with `k` quiet cycles to come. -/
def readState (st : St) (rx : List Byte) (k : Nat) : State :=
  { inState st with rx := rx, script := List.replicate k quiet }

/-- A run in its second attempt, 5 bytes into block 2, abandoned (V-S15). -/
def rejectState : State :=
  { inState .reject with
    length := 133, byteIndex := 5#8, capacity := 384, expectedBlockNumber := 2#8, retryCount := 2#4, checksum := 9#8,
    script := [quiet, quiet, quiet] }

theorem rejectState_inv : rejectState.Inv := by
  constructor <;> simp [rejectState, inState, State.reset, byteIndexOk, canCountOk, headroomState, attemptState,
    failureState, Memory.wf]

/-- A run that found the buffer full. -/
def failState : State :=
  { inState .fail with capacity := 127, script := [quiet, .cycle readyIn, .cycle readyIn, .cycle readyIn] }

theorem failState_inv : failState.Inv := by
  constructor <;> simp [failState, inState, State.reset, byteIndexOk, canCountOk, headroomState, attemptState,
    failureState, Memory.wf]

/-- The last payload byte of the only block that fits. -/
def lastByteState : State :=
  { inState .readPayload with length := 127, byteIndex := 127#8, capacity := 255, retryCount := 1#4 }

theorem lastByteState_inv : lastByteState.Inv := by
  constructor <;> simp [lastByteState, inState, State.reset, byteIndexOk, canCountOk, headroomState, attemptState,
    failureState, Memory.wf]

/-- A successful run of one block. -/
def doneState : State :=
  { inState .done with length := 128, capacity := 256, expectedBlockNumber := 2#8, retryCount := 1#4 }

theorem doneState_inv : doneState.Inv := by
  constructor <;> simp [doneState, inState, State.reset, byteIndexOk, canCountOk, headroomState, attemptState,
    failureState, Memory.wf]

/-- A failed run of each kind (R143). -/
def failedState (e : LastError) (retry : BitVec 4) (capacity : Nat) : State :=
  { inState .failed with lastError := e, retryCount := retry, capacity := capacity, canCount := 3#2 }

theorem failedState_full_inv : (failedState .none 0#4 127).Inv := by
  constructor <;> simp [failedState, inState, State.reset, byteIndexOk, canCountOk, headroomState, attemptState,
    failureState, Memory.wf]
theorem failedState_timeout_inv : (failedState .timeout 11#4 256).Inv := by
  constructor <;> simp [failedState, inState, State.reset, byteIndexOk, canCountOk, headroomState, attemptState,
    failureState, Memory.wf]
theorem failedState_block_inv : (failedState .block 1#4 256).Inv := by
  constructor <;> simp [failedState, inState, State.reset, byteIndexOk, canCountOk, headroomState, attemptState,
    failureState, Memory.wf]

theorem witness_TimeoutOperandIsFixedByTheReadingState :
    St.timeout .awaitStart ≠ none ∧ St.timeout .flushDesync ≠ none := by decide
theorem witness_TrdArmReadsTheClockAndFormsTheDeadline :
    ∃ (s : State) (w : Word32), s.tst = .arm ∧ s.st.timeout = some w :=
  ⟨{ inState .readCksum with tst := .arm }, 250000#32, rfl, rfl⟩
theorem witness_TrdPollTakesTheOldestByteOrNothing :
    (∃ s : State, s.tst = .poll) ∧ (∃ (s : State) (b : Byte) (rest : List Byte), s.rx = b :: rest) ∧
    ∃ s : State, s.rx = [] :=
  ⟨⟨{ State.reset with tst := .poll }, rfl⟩, ⟨readState .awaitStart [0x01#8] 0, 0x01#8, [], rfl⟩, ⟨State.reset, rfl⟩⟩
theorem witness_TrdChkTestsTheSignedDifference : ∃ s : State, s.tst = .chk := ⟨{ State.reset with tst := .chk }, rfl⟩
/-- The latest sample that is still told right, and the largest usable timeout (V-T12, V-T16). -/
theorem witness_TimeoutIsReportedExactlyFromTheDeadlineOn :
    (∃ w e : Word32, w.toNat ≤ 2 ^ 31 ∧ e.toNat < w.toNat + 2 ^ 31 ∧ w.toNat ≤ e.toNat) ∧
    ∃ w e : Word32, w.toNat ≤ 2 ^ 31 ∧ e.toNat < w.toNat + 2 ^ 31 ∧ e.toNat < w.toNat :=
  ⟨⟨250000#32, 0x8003D08F#32, by decide⟩, ⟨0x80000000#32, 0x7FFFFFFF#32, by decide⟩⟩
/-- V-T15 and V-T13. -/
theorem witness_TimeoutsBeyondHalfTheClockRangeAreMisread :
    (∃ w : Word32, 2 ^ 31 < w.toNat) ∧ ∃ w e : Word32, w.toNat + 2 ^ 31 ≤ e.toNat :=
  ⟨⟨0x80000001#32, by decide⟩, ⟨250000#32, 0x8003D090#32, by decide⟩⟩
theorem witness_ReadingStateBeginsItsTimedRead :
    ∃ (s : State) (inp : Inputs) (es : List Event) (w : Word32), s.st.timeout = some w ∧ s.tst = .off ∧
      s.result = none ∧ s.script = .cycle inp :: es ∧ inp.rst = false :=
  ⟨readState .awaitStart [] 1, quietInputs, [], 3000000#32, rfl, rfl, rfl, rfl, rfl⟩
theorem witness_WaitingByteWinsOverTheDeadline :
    ∃ (s : State) (w : Word32) (b : Byte) (rest : List Byte) (i1 i2 : Inputs) (es : List Event),
      s.st.timeout = some w ∧ s.tst = .off ∧ s.result = none ∧ s.rx = b :: rest ∧
      s.script = .cycle i1 :: .cycle i2 :: es ∧ i1.rst = false ∧ i2.rst = false :=
  ⟨readState .readBlknum [1#8] 2, 250000#32, 1#8, [], quietInputs, quietInputs, [], rfl, rfl, rfl, rfl, rfl, rfl, rfl⟩
theorem witness_QuietTimedReadPollsOnceThenChecks :
    ∃ (s : State) (w : Word32) (i1 i2 i3 : Inputs) (es : List Event),
      s.st.timeout = some w ∧ s.tst = .off ∧ s.result = none ∧ s.rx = [] ∧
      s.script = .cycle i1 :: .cycle i2 :: .cycle i3 :: es ∧ i1.rst = false ∧ i2.rst = false ∧ i3.rst = false :=
  ⟨readState .flushDup [] 3, 250000#32, quietInputs, quietInputs, quietInputs, [], rfl, rfl, rfl, rfl, rfl, rfl, rfl, rfl⟩
theorem witness_FlushesDiscardBytesAndEndOnTheTimeout :
    ∀ st ∈ [St.flushResync, .flushDup, .flushDesync], ∃ (s : State) (r : RdResult),
      s.tst = .off ∧ s.result = some r ∧ s.st = st :=
  fun st _ => ⟨withResult st .timeout, .timeout, rfl, rfl, rfl⟩
theorem witness_StartInitialisesTheSession :
    (∃ s : State, busy s = false ∧ s.tst = .off ∧ s.inp.start = true) ∧ (∃ s : State, busy s = false) ∧
    ∃ s : State, busy s = true :=
  ⟨⟨{ inState .failed with inp := { quietInputs with start := true } }, by decide⟩, ⟨inState .done, by decide⟩,
    ⟨inState .readPayload, by decide⟩⟩
theorem witness_RestingBlockChangesNothing :
    ∃ (s : State) (inp : Inputs) (es : List Event), busy s = false ∧ s.tst = .off ∧ s.script = .cycle inp :: es ∧
      inp.rst = false ∧ inp.start = false :=
  ⟨{ inState .done with script := [quiet] }, quietInputs, [], rfl, rfl, rfl, rfl, rfl⟩
theorem witness_StartWhileBusyIsIgnored :
    ∃ (s : State) (inp : Inputs) (es : List Event) (t : State), busy s = true ∧
      step { s with script := .cycle inp :: es } = .next t :=
  ⟨inState .loopCheck, quietInputs, [], _, rfl, rfl⟩
theorem witness_LoopchkTestsTheHeadroom :
    (∃ s : State, s.st = .loopCheck ∧ s.tst = .off ∧ s.result = none) ∧
    (∃ s : State, s.length + 128 = s.capacity) ∧ ∃ s : State, s.capacity + 1 = s.length + 128 :=
  ⟨⟨inState .loopCheck, rfl, rfl, rfl⟩, ⟨{ State.reset with capacity := 128 }, rfl⟩,
    ⟨{ State.reset with capacity := 127 }, rfl⟩⟩
theorem witness_PresendResetsTheCounterOrFlushes :
    (∃ s : State, s.st = .preSend ∧ s.tst = .off ∧ s.result = none) ∧ (∃ s : State, s.pendingAck = 0x06#8) ∧
    ∃ s : State, s.pendingAck ≠ 0x06#8 :=
  ⟨⟨inState .preSend, rfl, rfl, rfl⟩, ⟨{ State.reset with pendingAck := 0x06#8 }, rfl⟩, ⟨State.reset, by decide⟩⟩
theorem witness_RetryincCountsAndTestsTheCeiling :
    (∃ s : State, s.st = .retryInc ∧ s.tst = .off ∧ s.result = none) ∧ (∃ s : State, s.retryCount.toNat = 9) ∧
    ∃ s : State, s.retryCount.toNat = 10 :=
  ⟨⟨inState .retryInc, rfl, rfl, rfl⟩, ⟨{ State.reset with retryCount := 9#4 }, rfl⟩,
    ⟨{ State.reset with retryCount := 10#4 }, rfl⟩⟩
/-- The statements of one shape: a control state selects its operation, and a write is accepted or waits. -/
theorem witness_control_states :
    ∀ st ∈ [St.sendCtrl, .reject, .fail, .sendCan, .sendFinAck, .advance],
      ∃ s : State, s.st = st ∧ s.tst = .off ∧ s.result = none ∧ s.inp.txReady = false :=
  fun st _ => ⟨inState st, rfl, rfl, rfl, rfl⟩
theorem witness_writes_accepted :
    ∀ st ∈ [St.sendCtrl, .sendCan, .sendFinAck], ∃ s : State, s.st = st ∧ s.tst = .off ∧ s.result = none ∧
      s.inp.txReady = true :=
  fun st _ => ⟨{ inState st with inp := readyIn }, rfl, rfl, rfl, rfl⟩
theorem witness_RejectRollsTheLengthBack :
    (∃ (s : State) (n : Nat), n + s.byteIndex.toNat = s.length ∧ n = 0) ∧
    ∃ (s : State) (n : Nat), n + s.byteIndex.toNat = s.length ∧ s.byteIndex = 0#8 :=
  ⟨⟨{ State.reset with byteIndex := 128#8, length := 128 }, 0, rfl, rfl⟩, ⟨{ State.reset with length := 128 }, 128, rfl, rfl⟩⟩
theorem witness_FrameClassifier :
    ∀ r : RdResult, ∃ s : State, s.st = .awaitStart ∧ s.tst = .off ∧ s.result = some r :=
  fun r => ⟨withResult .awaitStart r, rfl, rfl, rfl⟩
/-- The three classes, at the wrap of the number: `expected_block_number` 0 (V-F8, V-F11). -/
theorem witness_BlockNumberValidator :
    ∃ s : State, s.st = .readBlknum ∧ s.tst = .off ∧ s.result = some .timeout ∧
      (0xFF#8 : Byte).toNat = (s.expectedBlockNumber.toNat + 255) % 256 ∧
      (0x01#8 : Byte).toNat ≠ (s.expectedBlockNumber.toNat + 255) % 256 ∧ 0x01#8 ≠ s.expectedBlockNumber ∧
      0x00#8 = s.expectedBlockNumber :=
  ⟨{ withResult .readBlknum .timeout with expectedBlockNumber := 0#8 }, by decide⟩
theorem witness_InverseBlockNumberCheck :
    ∃ s : State, s.st = .readInvblk ∧ s.tst = .off ∧ s.result = some (.byte 0x00#8) ∧
      (0x00#8 : Byte).toNat = 255 - s.expectedBlockNumber.toNat ∧
      (0xFF#8 : Byte).toNat ≠ 255 - s.expectedBlockNumber.toNat :=
  ⟨{ withResult .readInvblk (.byte 0x00#8) with expectedBlockNumber := 255#8 }, by decide⟩
theorem witness_PayloadByteIsStoredAndSummed :
    ∃ s : State, s.st = .readPayload ∧ s.tst = .off ∧ s.result = some (.byte 0x04#8) :=
  ⟨withResult .readPayload (.byte 0x04#8), rfl, rfl, rfl⟩
theorem witness_PayloadTimeoutRejects :
    ∃ s : State, s.st = .readPayload ∧ s.tst = .off ∧ s.result = some .timeout :=
  ⟨withResult .readPayload .timeout, rfl, rfl, rfl⟩
theorem witness_ChecksumCheck :
    ∀ r : RdResult, ∃ s : State, s.st = .readCksum ∧ s.tst = .off ∧ s.result = some r :=
  fun r => ⟨withResult .readCksum r, rfl, rfl, rfl⟩
theorem witness_BlockCycleRunsTheSelectedOperation :
    ∃ (s : State) (inp : Inputs) (es : List Event) (i : Instr), s.script = .cycle inp :: es ∧ inp.rst = false ∧
      let u := { s with
        script := es, inp := inp, rxPop := false, bufWe := false,
        tst := if reading s.st = true ∧ s.tst = .off ∧ s.result = none then .arm else s.tst }
      decode u.expectedBlockNumber u.checksum (.op ⟨u.st.code, u.tst.code, eventOf u⟩) = .ok i :=
  ⟨{ inState .readCksum with script := [quiet] }, quietInputs, [], .trdArm 250000#32, rfl, rfl, rfl⟩
theorem witness_WireMoveRunsItsRow :
    (∃ (s : State) (w : WireItem) (es : List Event), s.script = .wire w :: es ∧ writtenItem w = false) ∧
    (∃ (s : State) (w : WireItem) (es : List Event), s.script = .wire w :: es ∧ busy s = false) ∧
    ∃ (s : State) (w : WireItem) (es : List Event), s.script = .wire w :: es ∧ writtenItem w = true ∧ busy s = true :=
  ⟨⟨{ inState .awaitStart with script := [.wire .eotFrame] }, .eotFrame, [], rfl, rfl⟩,
    ⟨{ State.reset with script := [.wire .nak] }, .nak, [], rfl, rfl⟩,
    ⟨{ inState .awaitStart with script := [.wire .nak] }, .nak, [], rfl, rfl, rfl⟩⟩
theorem witness_ChannelMovesChangeTheQueueOnly :
    (∃ (s : State) (b : Byte) (es : List Event), s.script = .arrive b :: es) ∧
    (∃ (s : State) (shown : Byte) (older : List Byte) (b : Byte) (newer : List Byte) (es : List Event),
      s.rx = shown :: older ++ b :: newer ∧ s.script = .lose older.length :: es) ∧
    ∃ (s : State) (k : Nat) (es : List Event), s.rx.length = k + 1 ∧ s.script = .lose k :: es :=
  ⟨⟨{ inState .awaitStart with script := [.arrive 1#8] }, 1#8, [], rfl⟩,
    ⟨{ inState .readPayload with rx := [1#8, 2#8], script := [.lose 0] }, 1#8, [], 2#8, [], [], rfl, rfl⟩,
    ⟨{ inState .readPayload with rx := [1#8], script := [.lose 0] }, 0, [], rfl, rfl⟩⟩
theorem witness_HostMovesHappenAtRestOnly :
    ∀ st ∈ [St.done, .readPayload], ∀ e ∈ [Event.hostTake, .hostRead 0, .hostWrite 1#8, .hostStore 0 2#8],
      ∃ s : State, busy s = decide (st = .readPayload) ∧ s.script = e :: [] := by
  intro st hst e _
  refine ⟨{ inState st with script := [e] }, ?_, rfl⟩
  simp only [List.mem_cons, List.not_mem_nil, or_false] at hst
  rcases hst with rfl | rfl <;> rfl
theorem witness_HardwareResetForcesIdle :
    ∃ (s : State) (inp : Inputs) (es : List Event), s.script = .cycle inp :: es ∧ inp.rst = true :=
  ⟨{ inState .sendCan with script := [.cycle { quietInputs with rst := true }] }, { quietInputs with rst := true }, [], rfl,
    rfl⟩
/-- Of EveryStepKeepsTheInvariant, ControlFollowsTheTransitionTable and
RetryCountRisesOnlyInRetryInc: a state with the invariant that takes a step in a block cycle without `rst`. -/
theorem witness_invariant_step : ∃ s t : State, s.Inv ∧ step s = .next t ∧ (nextEvent s).1 = .cycle quietInputs :=
  ⟨rejectState, _, rejectState_inv, rfl, rfl⟩
/-- And one in which another agent moves. -/
theorem witness_invariant_move : ∃ s t : State, s.Inv ∧ step s = .next t ∧ (nextEvent s).1 = .arrive 1#8 := by
  refine ⟨{ rejectState with script := [.arrive 1#8] }, _, ?_, rfl, rfl⟩
  constructor <;> simp [rejectState, inState, State.reset, byteIndexOk, canCountOk, headroomState, attemptState,
    failureState, Memory.wf]
/-- Every case of InvariantStatesNeverStop: each move, while busy (`rejectState`) and at rest (`doneState`). -/
theorem witness_InvariantStatesNeverStop :
    (∀ e : Event, ∃ s : State, s.Inv ∧ (nextEvent s).1 = e ∧ busy s = true) ∧
    ∀ e : Event, ∃ s : State, s.Inv ∧ (nextEvent s).1 = e ∧ busy s = false :=
  ⟨fun e => ⟨{ rejectState with script := [e] }, rejectState_inv.script [e], rfl, rfl⟩,
    fun e => ⟨{ doneState with script := [e] }, doneState_inv.script [e], rfl, rfl⟩⟩
theorem witness_EveryOutcomeHasAnOperation :
    ∃ (s : State) (r : RdResult), reading s.st = true ∧ s.tst = .off ∧ s.result = some r :=
  ⟨withResult .flushDesync (.byte 0xFF#8), .byte 0xFF#8, rfl, rfl, rfl⟩
theorem witness_StoresAndResultsStayInTheHeadroom :
    (∃ (s t : State) (inp : Inputs), s.Inv ∧ (nextEvent s).1 = .cycle inp ∧ step s = .next t ∧ t.bufWe = true ∧
      t.bufOff + 1 = 128 * (t.capacity / 128)) ∧
    (∃ s : State, s.Inv ∧ s.st = .readPayload ∧ s.length + 1 = 128 * (s.capacity / 128)) ∧
    ∃ s : State, s.Inv ∧ s.st = .done ∧ resultLen s = 128 * (s.capacity / 128 - 1) :=
  ⟨⟨{ lastByteState with result := some (.byte 7#8), script := [quiet] }, _, quietInputs, by
      constructor <;> simp [lastByteState, inState, State.reset, byteIndexOk, canCountOk, headroomState, attemptState,
        failureState, Memory.wf, reading, St.timeout], rfl, rfl, rfl, rfl⟩,
    ⟨lastByteState, lastByteState_inv, rfl, by decide⟩, ⟨doneState, doneState_inv, rfl, by decide⟩⟩
theorem witness_WritesHappenWhenValidAndReady :
    ∃ (s t : State) (inp : Inputs), (nextEvent s).1 = .cycle inp ∧ inp.rst = false ∧ step s = .next t ∧
      t.txValid = true ∧ inp.txReady = true :=
  ⟨{ inState .sendCtrl with script := [.cycle readyIn] }, _, readyIn, rfl, rfl, rfl, rfl, rfl⟩
theorem witness_FailureKindsAreToldApart :
    (∃ s : State, s.Inv ∧ s.st = .failed ∧ lastErrorOut s = 0#2) ∧
    (∃ s : State, s.Inv ∧ s.st = .failed ∧ lastErrorOut s = 1#2) ∧
    ∃ s : State, s.Inv ∧ s.st = .failed ∧ lastErrorOut s = 2#2 :=
  ⟨⟨_, failedState_full_inv, rfl, rfl⟩, ⟨_, failedState_timeout_inv, rfl, rfl⟩, ⟨_, failedState_block_inv, rfl, rfl⟩⟩
theorem witness_RetryEntryRollsBackAndFlushes :
    ∃ (s : State) (i1 i2 i3 : Inputs) (es : List Event), s.Inv ∧ s.st = .reject ∧
      s.script = .cycle i1 :: .cycle i2 :: .cycle i3 :: es ∧ i1.rst = false ∧ i2.rst = false ∧ i3.rst = false :=
  ⟨rejectState, quietInputs, quietInputs, quietInputs, [], rejectState_inv, rfl, rfl, rfl, rfl, rfl⟩
theorem witness_TerminalEntrySendsThreeCan :
    ∃ (s : State) (i1 i2 i3 i4 : Inputs) (es : List Event), s.Inv ∧ s.st = .fail ∧
      s.script = .cycle i1 :: .cycle i2 :: .cycle i3 :: .cycle i4 :: es ∧
      i1.rst = false ∧ i2.rst = false ∧ i3.rst = false ∧ i4.rst = false ∧
      i2.txReady = true ∧ i3.txReady = true ∧ i4.txReady = true :=
  ⟨failState, quietInputs, readyIn, readyIn, readyIn, [], failState_inv, rfl, rfl, rfl, rfl, rfl, rfl, rfl, rfl, rfl⟩
theorem witness_StreamsKeepTheirOrder : ∃ s t : State, step s = .next t :=
  ⟨{ State.reset with script := [.arrive 1#8] }, _, rfl⟩
theorem witness_EnvironmentOperationsAccountForTheStreams :
    ∃ (i : Instr) (s t : State), wireItem? i = none ∧ exec i s = .next t :=
  ⟨.sendcan, { inState .sendCan with inp := readyIn }, _, rfl, rfl⟩
/-- Each of the three outcomes of a step. -/
theorem witness_BufferContentsNeverMatter :
    (∃ s t : State, step s = .next t) ∧ (∃ (s : State) (f : Fault), step s = .fault f) ∧
    ∃ (s : State) (r : Refusal), step s = .refused r :=
  ⟨⟨{ lastByteState with script := [quiet] }, _, rfl⟩,
    ⟨{ State.reset with tst := .arm, script := [quiet] }, .unlistedSelection, rfl⟩,
    ⟨{ inState .reject with script := [.hostTake] }, .exclusivityBroken, rfl⟩⟩
theorem witness_OnlyTimedReadsSeeChannelAndClock :
    ∃ (i : Instr) (s t : State), wireItem? i = none ∧ (∀ w, i ≠ .trdArm w) ∧ i ≠ .trdPoll ∧ i ≠ .trdChk ∧
      exec i s = .next t :=
  ⟨.payloadByte 1#8, inState .readPayload, _, rfl, by simp, by simp, by simp, rfl⟩
theorem witness_NothingSurvivesStart :
    ∃ s u : State, s ≠ u ∧ busy s = false ∧ busy u = false ∧ u.txValid = s.txValid ∧ u.txData = s.txData ∧
      u.rxPop = s.rxPop ∧ u.bufWe = s.bufWe ∧ u.bufOff = s.bufOff ∧ u.bufWdata = s.bufWdata ∧ u.mem = s.mem ∧
      u.rx = s.rx ∧ u.tx = s.tx ∧ u.inp = s.inp ∧ u.script = s.script ∧ u.draws = s.draws :=
  ⟨State.reset, failedState .timeout 11#4 256, by decide⟩
theorem witness_BigStepWithAByteIsThreeCycles :
    ∃ (s : State) (b : Byte) (rest : List Byte) (i1 i2 i3 : Inputs) (es : List Event), reading s.st = true ∧
      s.tst = .off ∧ s.result = none ∧ s.rx = b :: rest ∧ s.script = .cycle i1 :: .cycle i2 :: .cycle i3 :: es ∧
      i1.rst = false ∧ i2.rst = false ∧ i3.rst = false :=
  ⟨readState .awaitStart [0x01#8, 0x01#8] 3, 0x01#8, [0x01#8], quietInputs, quietInputs, quietInputs, [],
    rfl, rfl, rfl, rfl, rfl, rfl, rfl, rfl⟩
/-- The frame of block 1, once with the right checksum and once with a wrong one. -/
theorem witness_FrameIsCommittedOrRolledBack :
    ∀ cks ∈ [(0x00#8 : Byte), 0x01#8], ∃ (s : State) (data : List Byte) (rest : List Byte) (ins : List Inputs)
      (es : List Event), s.st = .awaitStart ∧ s.tst = .off ∧ s.result = none ∧ data.length = 128 ∧
      s.rx = [0x01#8, s.expectedBlockNumber, ~~~s.expectedBlockNumber] ++ data ++ [cks] ++ rest ∧
      ins.length = 397 ∧ (∀ i ∈ ins, i.rst = false) ∧ s.script = ins.map .cycle ++ es := by
  intro cks _
  refine ⟨{ inState .awaitStart with
      rx := [0x01#8, 1#8, 0xFE#8] ++ fillData 0xAA#8 ++ [cks] ++ [0x04#8],
      script := (List.replicate 397 quietInputs).map .cycle ++ [] },
    fillData 0xAA#8, [0x04#8], List.replicate 397 quietInputs, [], rfl, rfl, rfl, ?_, ?_, ?_, ?_, rfl⟩
  · simp [fillData]
  · have e : ~~~(1#8) = 0xFE#8 := by decide
    change [0x01#8, 1#8, 0xFE#8] ++ _ ++ _ ++ _ = [0x01#8, 1#8, ~~~(1#8)] ++ _ ++ _ ++ _
    rw [e]
  · exact List.length_replicate
  · intro i hi; rw [List.eq_of_mem_replicate hi]; rfl
theorem witness_DecodeOfEncodeIsTheInstruction :
    (∃ w, (Instr.trdArm w).wf = true) ∧ (Instr.start 0).wf = true ∧ (Instr.awaitOther 0x18#8).wf = true ∧
    (Instr.blknumDup 0xFF#8).agrees 0#8 0#8 = true ∧ (Instr.blknumBad 1#8).agrees 0#8 0#8 = true ∧
    (Instr.blknumOk 0#8).agrees 0#8 0#8 = true ∧ (Instr.invblkOk 0xFF#8).agrees 0#8 0#8 = true ∧
    (Instr.invblkBad 0#8).agrees 0#8 0#8 = true ∧ (Instr.cksumOk 0#8).agrees 0#8 0#8 = true ∧
    (Instr.cksumBad 1#8).agrees 0#8 0#8 = true :=
  ⟨⟨3000000#32, by decide⟩, by simp [Instr.wf], by decide, by decide, by decide, by decide, by decide, by decide, by decide,
    by decide⟩
theorem witness_DecodedInstructionsFitTheirClass :
    ∃ (exp cks : Byte) (c : Code) (i : Instr), decode exp cks c = .ok i ∧ ∀ n, i ≠ .start n :=
  ⟨2#8, 0#8, .op ⟨7#5, 0#2, .byte 1#8⟩, .blknumDup 1#8, rfl, by simp⟩

end Sys2Proof.Tests
end

section
/-! PROOFS. The arithmetic of 00_scope.md: block numbers (R11, R12) and the deadline of a timed read (R13). -/

namespace Sys2Proof.Proofs.Scope

open Sys2Proof.Machine

/-! ## Block numbers -/

/-- R11. -/
theorem toNat_nextBlock (n : Byte) : (nextBlock n).toNat = (n.toNat + 1) % 256 := by
  simp [nextBlock, BitVec.toNat_add]

/-- R11. -/
theorem toNat_prevBlock (n : Byte) : (prevBlock n).toNat = (n.toNat + 255) % 256 := by
  simp [prevBlock, BitVec.toNat_sub, Nat.add_comm]

/-- R12. -/
theorem toNat_inverseBlock (n : Byte) : (inverseBlock n).toNat = 255 - n.toNat := by
  simp [inverseBlock, BitVec.toNat_not]

/-- Settles O29, from the value of each of the three numbers and `prevBlock_ne`. -/
theorem blockNumberArithmetic : Obligations.BlockNumberArithmetic := fun n =>
  ⟨toNat_nextBlock n, toNat_prevBlock n, toNat_inverseBlock n, prevBlock_ne n⟩

/-! ## Deadlines -/

/-- R111. -/
theorem exec_trdArm (w : Word32) (s : State) :
    exec (.trdArm w) s = .next { s with deadline := deadlineOf s.inp.now w, tst := .poll } := rfl

/-- R113, both branches in one next state. -/
theorem exec_trdChk (s : State) :
    exec .trdChk s = .next (if expired s.inp.now s.deadline then { s with result := some .timeout, tst := .off }
      else { s with tst := .poll }) :=
  (apply_ite Host.Outcome.next _ _ _).symm

/-- The arming time cancels: the expiry test sees only `e - w`, modulo `2^32`, and whether it is in the lower half
of the clock range. So the wrap of the clock does not matter (R120). -/
theorem expired_deadlineOf_iff (t0 w e : Word32) :
    expired (t0 + e) (deadlineOf t0 w) = true ↔ (e - w).toNat < 2 ^ 31 := by
  have cancel : t0 + e - (t0 + w) = e - w := by bv_omega
  rw [expired_iff, deadlineOf, cancel, BitVec.toInt_pos_iff]
  omega

/-- R119: up to a timeout of `2^31`, and less than `2^31` late, the modular difference is in the lower half of the
clock range exactly when it did not borrow. -/
theorem toNat_sub_lt_half_iff {w e : Word32} (hw : w.toNat ≤ 2 ^ 31) (he : e.toNat < w.toNat + 2 ^ 31) :
    (e - w).toNat < 2 ^ 31 ↔ w.toNat ≤ e.toNat := by
  rcases Nat.lt_or_ge e.toNat w.toNat with early | due
  · have borrow : (e - w).toNat = 2 ^ 32 - (w.toNat - e.toNat) := by bv_omega
    omega
  · have noBorrow : (e - w).toNat = e.toNat - w.toNat := BitVec.toNat_sub_of_le due
    omega

/-- Settles O5: the check's expiry test depends on `e - w` alone, which is in the lower half exactly when `w ≤ e`. -/
theorem timeoutIsReportedExactlyFromTheDeadlineOn : Obligations.TimeoutIsReportedExactlyFromTheDeadlineOn := by
  intro s w t0 e hw he
  refine ⟨_, exec_trdArm w (s.atTime t0), ?_⟩
  have key : expired (t0 + e) (deadlineOf t0 w) = true ↔ w.toNat ≤ e.toNat :=
    (expired_deadlineOf_iff t0 w e).trans (toNat_sub_lt_half_iff hw he)
  rw [exec_trdChk]
  simp only [State.atTime, key]

end Sys2Proof.Proofs.Scope
end

section
/-! PROOFS. What an operation of the block does outside its registers: the transmit port, the stream behind it, and the
buffer; and what the shared begin of a block cycle leaves as it was. -/

namespace Sys2Proof.Proofs.Effects

open Sys2Proof.Machine

@[simp] theorem cycleState_st (inp : Inputs) (s : State) : (cycleState inp s).st = s.st := beginRead_st _
@[simp] theorem cycleState_retryCount (inp : Inputs) (s : State) : (cycleState inp s).retryCount = s.retryCount :=
  beginRead_retryCount _
@[simp] theorem cycleState_txValid (inp : Inputs) (s : State) : (cycleState inp s).txValid = false := beginRead_txValid _
@[simp] theorem cycleState_tx (inp : Inputs) (s : State) : (cycleState inp s).tx = s.tx := beginRead_tx _
@[simp] theorem cycleState_inp (inp : Inputs) (s : State) : (cycleState inp s).inp = inp := beginRead_inp _

/-- The input ports, the transmit port and the transmit stream are as they were. -/
structure SamePort (s t : State) : Prop where
  inp : t.inp = s.inp
  tx : t.tx = s.tx
  txValid : t.txValid = s.txValid
  txData : t.txData = s.txData

/-- What an operation can do outside the registers: nothing, one store, or one write, after which only registers
change. -/
inductive Outside (s : State) : State → Prop
  | quiet {t : State} : SamePort s t → t.mem = s.mem → Outside s t
  | store {t : State} (off : Nat) (b : Byte) : SamePort s t → t.mem = Memory.write s.mem off b → Outside s t
  | send (b : Byte) (after : State → State) : writing s = some b →
      (∀ u, SamePort u (after u) ∧ (after u).mem = u.mem) → Outside s (chanWrite b after s)

/-- R112, both outcomes with the whole next state. -/
theorem exec_trdPoll {s t : State} (he : exec .trdPoll s = .next t) :
    t = { s with tst := .chk } ∨
      ∃ b rest, t = { s with rx := rest, rxPop := true, result := some (.byte b), tst := .off } := by
  simp only [exec, execTrdPoll] at he
  by_cases hempty : s.rx = []
  · rw [chanPoll_empty s hempty] at he
    exact .inl (next_inj he).symm
  · obtain ⟨b, rest, hrx⟩ := List.exists_cons_of_ne_nil hempty
    rw [chanPoll_byte s b rest hrx] at he
    exact .inr ⟨b, rest, (next_inj he).symm⟩

/-- Everything a selected operation can do outside the registers. -/
theorem exec_outside {s t : State} {i : Instr} (hs : Selects s i) (he : exec i s = .next t) : Outside s t := by
  cases i with
  | trdPoll =>
    obtain rfl | ⟨b, rest, rfl⟩ := exec_trdPoll he <;> exact .quiet ⟨rfl, rfl, rfl, rfl⟩ rfl
  | trdChk | start | loopchk | presend | retryinc =>
    simp only [exec, execTrdChk, execStart, execLoopchk, execPresend, execRetryinc] at he
    split at he <;> (cases next_inj he; exact .quiet ⟨rfl, rfl, rfl, rfl⟩ rfl)
  | flushResync r | flushDup r | flushDesync r =>
    cases r <;> (cases next_inj he; exact .quiet ⟨rfl, rfl, rfl, rfl⟩ rfl)
  | sendctl | sendcan | finack =>
    obtain ⟨-, hst, -⟩ := hs
    cases next_inj he
    exact .send _ _ (by simp [writing, hst]) fun _ => ⟨⟨rfl, rfl, rfl, rfl⟩, rfl⟩
  | payloadByte b => cases next_inj he; exact .store s.length b ⟨rfl, rfl, rfl, rfl⟩ rfl
  | trdArm | reject | fail | awaitTo | awaitSoh | awaitEot | awaitOther | blknumTo | blknumDup | blknumBad | blknumOk
  | invblkOk | invblkBad | invblkTo | payloadTo | cksumOk | cksumBad | cksumTo | advance =>
    cases next_inj he
    exact .quiet ⟨rfl, rfl, rfl, rfl⟩ rfl
  | soh | eot | ack | nak | can | dataFrame | eotFrame | canSequence => cases hs

/-- R38: the transmit stream grows by the byte on the port in the cycle that shows `tx_valid` and `tx_ready`. -/
theorem Outside.handshake {s t : State} (h : Outside s t) (hv : s.txValid = false) :
    t.inp = s.inp ∧ t.tx = s.tx ++ (if t.txValid = true ∧ t.inp.txReady = true then [t.txData] else []) := by
  cases h with
  | quiet hport | store _ _ hport => simp [hport.inp, hport.tx, hport.txValid, hv]
  | send b after _ hafter =>
    obtain hready | hready := Bool.eq_false_or_eq_true s.inp.txReady
    · rw [chanWrite_ready b after s hready]
      obtain ⟨hport, -⟩ := hafter { s with tx := s.tx ++ [b], txValid := true, txData := b }
      simp [hport.inp, hport.tx, hport.txValid, hport.txData, hready]
    · simp [chanWrite_waits b after s hready, hready]

/-- A wire item passes over its stream and touches nothing else (R80). -/
theorem exec_wire {w : WireItem} {s t : State} (he : exec (wireInstr w) s = .next t) :
    ∃ bs, t = receive bs s ∨ t = transmit bs s := by
  cases w with
  | soh | eot | dataFrame | eotFrame => exact ⟨_, .inl (next_inj he).symm⟩
  | ack | nak | can | canSequence => exact ⟨_, .inr (next_inj he).symm⟩

/-- R26, R133, R136: what an operation does to `retry_count`. -/
theorem exec_retryCount {s t : State} {i : Instr} (hs : Selects s i) (he : exec i s = .next t) :
    t.retryCount = s.retryCount ∨ t.retryCount = 0#4 ∨ (s.st = .retryInc ∧ t.retryCount = s.retryCount + 1#4) := by
  cases i with
  | start c =>
    simp only [exec, execStart] at he
    split at he <;> cases next_inj he
    · exact .inl rfl
    · exact .inr (.inl rfl)
  | presend =>
    simp only [exec, execPresend] at he
    split at he <;> cases next_inj he
    · exact .inr (.inl rfl)
    · exact .inl rfl
  | retryinc =>
    obtain ⟨-, hst, -⟩ := hs
    have hsum : BitVec.ofNat 4 (retryNext s.retryCount) = s.retryCount + 1#4 := by simp [retryNext, BitVec.ofNat_add]
    simp only [exec, execRetryinc, hsum] at he
    split at he <;> (cases next_inj he; exact .inr (.inr ⟨hst, rfl⟩))
  | trdPoll => obtain rfl | ⟨b, rest, rfl⟩ := exec_trdPoll he <;> exact .inl rfl
  | trdChk | loopchk =>
    simp only [exec, execTrdChk, execLoopchk] at he
    split at he <;> (cases next_inj he; exact .inl rfl)
  | flushResync r | flushDup r | flushDesync r => cases r <;> (cases next_inj he; exact .inl rfl)
  | sendctl | sendcan | finack =>
    cases next_inj he
    unfold chanWrite
    split <;> exact .inl rfl
  | trdArm | reject | fail | awaitTo | awaitSoh | awaitEot | awaitOther | blknumTo | blknumDup | blknumBad | blknumOk
  | invblkOk | invblkBad | invblkTo | payloadByte | payloadTo | cksumOk | cksumBad | cksumTo | advance =>
    cases next_inj he
    exact .inl rfl
  | soh | eot | ack | nak | can | dataFrame | eotFrame | canSequence => cases hs

end Sys2Proof.Proofs.Effects
end

section
/-! PROOFS. The invariant of the machine (10_state.md R22, R42, R43) and that every step keeps it. The clauses of
`State.Inv` are taken in groups by the registers they speak of, so that an operation answers for the groups it touches. -/

namespace Sys2Proof.Proofs.Invariant

open Sys2Proof.Machine Sys2Proof.Proofs.Effects

/-! ## The groups of clauses -/

/-- The timed read (R22, R110). -/
structure ReadOk (st : St) (tst : Tst) (result : Option RdResult) : Prop where
  tst_reading : tst ≠ .off → reading st = true
  result_reading : result ≠ none → reading st = true ∧ tst = .off

/-- The block in progress and the room for it (R42, R43). -/
structure BlockOk (st : St) (length capacity byteIndex : Nat) (exp : Byte) : Prop where
  byte_index : byteIndexOk st byteIndex
  byte_index_le : byteIndex ≤ length
  length_le : length ≤ capacity
  headroom : headroomState st = true → length - byteIndex + 128 ≤ capacity
  whole_blocks : 128 ∣ length - byteIndex
  block_number : exp = BitVec.ofNat 8 (1 + (length - byteIndex) / 128)

/-- The pending byte and the count of attempts (R43, R136, R137). -/
structure AttemptOk (st : St) (ack : Byte) (retry : Nat) (e : LastError) : Prop where
  pending_ack : ack = 0x06#8 ∨ ack = 0x15#8
  pending_nak : attemptState st = true ∨ st = .flushResync → ack = 0x15#8
  retry_le : retry ≤ 10 ∨ (retry = 11 ∧ e = .timeout)
  retry_pos : attemptState st = true ∨ st = .sendCtrl → 1 ≤ retry
  error_timeout : e = .timeout → retry = 11

/-- How a run ends (R29, R32, R140, R143). -/
structure EndOk (st : St) (e : LastError) (length capacity canCount : Nat) : Prop where
  error_failure : e ≠ .none → failureState st = true
  buffer_full : failureState st = true → e = .none → capacity < length + 128
  can_count : canCountOk st canCount

/-- The transmit port (R7, R38, R63). -/
structure PortOk (s : State) : Prop where
  tx_port : s.txValid = true → s.inp.txReady = false → writing s = some s.txData
  tx_byte : s.txValid = true → s.txData = 0x06#8 ∨ s.txData = 0x15#8 ∨ s.txData = 0x18#8

/-- The groups that speak of registers. -/
structure RegsOk (s : State) : Prop where
  read : ReadOk s.st s.tst s.result
  block : BlockOk s.st s.length s.capacity s.byteIndex.toNat s.expectedBlockNumber
  attempt : AttemptOk s.st s.pendingAck s.retryCount.toNat s.lastError
  ending : EndOk s.st s.lastError s.length s.capacity s.canCount.toNat

/-- The groups make up the invariant. -/
theorem inv_iff (s : State) : s.Inv ↔ RegsOk s ∧ PortOk s ∧ Memory.wf s.mem = true := by
  constructor
  · intro h
    exact ⟨⟨{ h with }, { h with }, { h with }, { h with }⟩, { h with }, h.mem_wf⟩
  · rintro ⟨⟨hread, hblock, hattempt, hend⟩, hport, hmem⟩
    exact { hread, hblock, hattempt, hend, hport with mem_wf := hmem }

/-! ## What a change of control state asks of each group -/

/-- No timed read and no result: nothing is asked, whatever the control state. -/
theorem ReadOk.over (st : St) : ReadOk st .off none := ⟨by simp, by simp⟩

theorem ReadOk.unanswered {st : St} (h : reading st = true) (tst : Tst) : ReadOk st tst none := ⟨fun _ => h, by simp⟩

theorem ReadOk.answered {st : St} (h : reading st = true) (r : RdResult) : ReadOk st .off (some r) :=
  ⟨by simp, fun _ => ⟨h, rfl⟩⟩

/-- While a timed read is in progress no result waits. -/
theorem ReadOk.result_none {st : St} {tst : Tst} {r : Option RdResult} (h : ReadOk st tst r) (ht : tst ≠ .off) :
    r = none := by
  by_contra hr
  exact ht (h.result_reading hr).2

/-- In no control state is more stored than one block (R42). -/
theorem byteIndexOk_le {st : St} {n : Nat} (h : byteIndexOk st n) : n ≤ 128 := by
  cases st <;> simp only [byteIndexOk] at h <;> omega

theorem BlockOk.goto {a x : St} {len cap bi : Nat} {exp : Byte} (h : BlockOk a len cap bi exp) (hbi : byteIndexOk x bi)
    (hroom : headroomState x = true → headroomState a = true) : BlockOk x len cap bi exp :=
  { h with byte_index := hbi, headroom := fun hx => h.headroom (hroom hx) }

/-- The states of an attempt lie where the loop condition held. -/
theorem headroomState_of_attempt {st : St} : attemptState st = true → headroomState st = true := by
  cases st <;> decide

/-- No attempt is in progress in a failed run. -/
theorem failureState_of_attempt {st : St} : attemptState st = true → failureState st = false := by
  cases st <;> decide

/-- Outside an attempt, its opening flush and `SEND_CTRL`, only the ranges of `pending_ack` and `retry_count` are asked. -/
theorem AttemptOk.outside {x : St} {ack : Byte} {retry : Nat} {e : LastError}
    (hx : (attemptState x || decide (x = .flushResync) || decide (x = .sendCtrl)) = false)
    (hack : ack = 0x06#8 ∨ ack = 0x15#8) (hle : retry ≤ 10 ∨ retry = 11 ∧ e = .timeout)
    (htimeout : e = .timeout → retry = 11) : AttemptOk x ack retry e := by
  simp only [Bool.or_eq_false_iff, decide_eq_false_iff_not] at hx
  obtain ⟨⟨hatt, hflush⟩, hsend⟩ := hx
  exact ⟨hack, by simp [hatt, hflush], hle, by simp [hatt, hsend], htimeout⟩

theorem AttemptOk.leave {a x : St} {ack : Byte} {retry : Nat} {e : LastError} (h : AttemptOk a ack retry e)
    (hx : (attemptState x || decide (x = .flushResync) || decide (x = .sendCtrl)) = false) : AttemptOk x ack retry e :=
  .outside hx h.pending_ack h.retry_le h.error_timeout

/-- What holds during an attempt is all that any state asks. -/
theorem AttemptOk.within {a : St} {ack : Byte} {retry : Nat} {e : LastError} (h : AttemptOk a ack retry e)
    (ha : attemptState a = true) (x : St) : AttemptOk x ack retry e :=
  { h with pending_nak := fun _ => h.pending_nak (.inl ha), retry_pos := fun _ => h.retry_pos (.inl ha) }

theorem AttemptOk.retry_le_ten {st : St} {ack : Byte} {retry : Nat} {e : LastError} (h : AttemptOk st ack retry e)
    (he : e = .none) : retry ≤ 10 :=
  h.retry_le.resolve_right fun hr => by simp [he] at hr

theorem EndOk.error_none {st : St} {e : LastError} {len cap n : Nat} (h : EndOk st e len cap n)
    (hst : failureState st = false) : e = .none :=
  by_contradiction fun he => by simpa [hst] using h.error_failure he

/-- Outside a failed run `can_count` is 0. -/
theorem canCountOk_iff {st : St} (hst : failureState st = false) (n : Nat) : canCountOk st n ↔ n = 0 := by
  revert hst
  cases st <;> simp [failureState, canCountOk]

/-- Between states outside a failed run nothing changes, whatever `length` becomes. -/
theorem EndOk.running {a x : St} {e : LastError} {len cap n : Nat} (h : EndOk a e len cap n)
    (ha : failureState a = false) (hx : failureState x = false) (len' : Nat) : EndOk x e len' cap n where
  error_failure he := absurd (h.error_none ha) he
  buffer_full hf := by simp [hx] at hf
  can_count := (canCountOk_iff hx n).2 ((canCountOk_iff ha n).1 h.can_count)

/-! ## The moves several operations share -/

section
variable {s : State} {a : St} (h : RegsOk s) (hst : s.st = a)
include h hst

theorem RegsOk.block_at : BlockOk a s.length s.capacity s.byteIndex.toNat s.expectedBlockNumber := hst ▸ h.block

theorem RegsOk.attempt_at : AttemptOk a s.pendingAck s.retryCount.toNat s.lastError := hst ▸ h.attempt

theorem RegsOk.ending_at : EndOk a s.lastError s.length s.capacity s.canCount.toNat := hst ▸ h.ending

/-- Inside an attempt a change of control state asks for `byte_index` only. -/
theorem RegsOk.goto_attempt (ht : s.tst = .off) (ha : attemptState a = true) {x : St} (hx : attemptState x = true)
    (hbi : ∀ n, byteIndexOk a n → byteIndexOk x n) : RegsOk (s.consume.goto x) where
  read := by simpa [ht] using ReadOk.over x
  block := (h.block_at hst).goto (hbi _ (h.block_at hst).byte_index) fun _ => headroomState_of_attempt ha
  attempt := (h.attempt_at hst).within ha x
  ending := (h.ending_at hst).running (failureState_of_attempt ha) (failureState_of_attempt hx) _

/-- The transient faults T1 to T8 (R197): `REJECT` takes any `byte_index`. -/
theorem RegsOk.retry (ht : s.tst = .off) (ha : attemptState a = true) {c : Cause} (hc : transient c = true) :
    RegsOk (raise c s.consume) :=
  raise_transient c _ hc ▸ h.goto_attempt hst ht ha rfl fun _ => byteIndexOk_le

/-- The terminal faults F1 to F3 (R196), `last_error` and `retry_count` as the raising operation left them. -/
theorem RegsOk.terminal (ht : s.tst = .off) (hr : s.result = none) (ha : failureState a = false)
    (hbi : ∀ n, byteIndexOk a n → n = 0) {e : LastError} {n : BitVec 4}
    (hle : n.toNat ≤ 10 ∨ n.toNat = 11 ∧ e = .timeout) (htimeout : e = .timeout → n.toNat = 11)
    (hfull : e = .none → s.capacity < s.length + 128) :
    RegsOk ({ s with lastError := e, retryCount := n }.goto .fail) where
  read := by simpa [ht, hr] using ReadOk.over .fail
  block := (h.block_at hst).goto (hbi _ (h.block_at hst).byte_index) nofun
  attempt := .outside rfl h.attempt.pending_ack hle htimeout
  ending := ⟨fun _ => rfl, fun _ => hfull, (canCountOk_iff ha _).1 (h.ending_at hst).can_count⟩

/-- An attempt ends in `LOOP_CHECK` with whole blocks in `length`. -/
theorem RegsOk.goto_loopCheck (ht : s.tst = .off) (hr : s.result = none) (ha : attemptState a = true) {len : Nat}
    {bi exp ack : Byte} (hack : ack = 0x06#8 ∨ ack = 0x15#8) (hblock : BlockOk .loopCheck len s.capacity bi.toNat exp) :
    RegsOk ({ s with length := len, byteIndex := bi, expectedBlockNumber := exp, pendingAck := ack }.goto .loopCheck) where
  read := by simpa [ht, hr] using ReadOk.over .loopCheck
  block := hblock
  attempt := .outside rfl hack h.attempt.retry_le h.attempt.error_timeout
  ending := (h.ending_at hst).running (failureState_of_attempt ha) rfl _

end

/-! ## The operations -/

/-- A flush that discards a byte stays where it is (R134, R166, R168). -/
theorem RegsOk.consume {s : State} (h : RegsOk s) (ht : s.tst = .off) : RegsOk s.consume :=
  { h with read := by simpa [ht] using ReadOk.over s.st }

/-- R130: every register the invariant speaks of is written. -/
theorem startRun_regsOk (c : Nat) (s : State) : RegsOk (startRun c s) where
  read := ReadOk.over _
  block := ⟨rfl, le_rfl, Nat.zero_le c, nofun, ⟨0, rfl⟩, by simp [startRun]⟩
  attempt := ⟨.inr rfl, fun _ => rfl, .inl (Nat.zero_le _), by simp [startRun, attemptState], nofun⟩
  ending := ⟨fun he => absurd rfl he, nofun, rfl⟩

/-- R111. -/
theorem trdArm_regsOk {s : State} (h : RegsOk s) {w d : Word32} (hs : Selects s (.trdArm w)) :
    RegsOk { s with deadline := d, tst := .poll } := by
  obtain ⟨ht, hw⟩ := hs
  have hr : s.result = none := h.read.result_none (by simp [ht])
  have hreading : reading s.st = true := by simp [reading, hw]
  exact { h with read := hr ▸ ReadOk.unanswered hreading _ }

/-- R112. -/
theorem trdPoll_regsOk {s t : State} (h : RegsOk s) (ht : s.tst = .poll) (he : exec .trdPoll s = .next t) : RegsOk t := by
  have hreading : reading s.st = true := h.read.tst_reading (by simp [ht])
  have hr : s.result = none := h.read.result_none (by simp [ht])
  obtain rfl | ⟨b, rest, rfl⟩ := exec_trdPoll he
  · exact { h with read := hr ▸ ReadOk.unanswered hreading _ }
  · exact { h with read := ReadOk.answered hreading _ }

/-- R113. -/
theorem trdChk_regsOk {s t : State} (h : RegsOk s) (ht : s.tst = .chk) (he : exec .trdChk s = .next t) : RegsOk t := by
  have hreading : reading s.st = true := h.read.tst_reading (by simp [ht])
  have hr : s.result = none := h.read.result_none (by simp [ht])
  rw [Scope.exec_trdChk] at he
  cases next_inj he
  split
  · exact { h with read := ReadOk.answered hreading _ }
  · exact { h with read := hr ▸ ReadOk.unanswered hreading _ }

/-- R132: the loop condition is the headroom of the attempt, and its failure the mark of `BUFFER_FULL`. -/
theorem loopchk_regsOk {s t : State} (h : RegsOk s) (hs : Selects s .loopchk) (he : exec .loopchk s = .next t) :
    RegsOk t := by
  obtain ⟨ht, hst, hr⟩ := hs
  have hbi : s.byteIndex.toNat = 0 := (h.block_at hst).byte_index
  simp only [exec, execLoopchk, headroom, decide_eq_true_eq] at he
  split at he
  · rename_i hroom
    cases next_inj he
    exact { read := by simpa [ht, hr] using ReadOk.over .preSend
            block := { h.block_at hst with headroom := fun _ => by simpa [hbi] using hroom }
            attempt := (h.attempt_at hst).leave rfl
            ending := (h.ending_at hst).running rfl rfl _ }
  · rename_i hfull
    cases next_inj he
    exact h.terminal hst ht hr rfl (fun _ => id) h.attempt.retry_le h.attempt.error_timeout
      fun _ => Nat.lt_of_not_le hfull

/-- R133. -/
theorem presend_regsOk {s t : State} (h : RegsOk s) (hs : Selects s .presend) (he : exec .presend s = .next t) :
    RegsOk t := by
  obtain ⟨ht, hst, hr⟩ := hs
  have herr : s.lastError = .none := (h.ending_at hst).error_none rfl
  simp only [exec, execPresend] at he
  split at he
  · cases next_inj he
    exact { read := by simpa [ht, hr] using ReadOk.over .retryInc
            block := (h.block_at hst).goto (h.block_at hst).byte_index fun _ => rfl
            attempt := .outside rfl h.attempt.pending_ack (.inl (Nat.zero_le _)) (by simp [herr])
            ending := (h.ending_at hst).running rfl rfl _ }
  · rename_i hnak
    cases next_inj he
    exact { read := by simpa [ht, hr] using ReadOk.over .flushResync
            block := (h.block_at hst).goto (h.block_at hst).byte_index fun _ => rfl
            attempt := { h.attempt_at hst with
              pending_nak := fun _ => h.attempt.pending_ack.resolve_left hnak, retry_pos := by simp [attemptState] }
            ending := (h.ending_at hst).running rfl rfl _ }

/-- R134: the flush has ended. -/
theorem flushResync_timeout_regsOk {s : State} (h : RegsOk s) (ht : s.tst = .off) (hst : s.st = .flushResync) :
    RegsOk (s.consume.goto .retryInc) where
  read := by simpa [ht] using ReadOk.over .retryInc
  block := (h.block_at hst).goto (h.block_at hst).byte_index fun _ => rfl
  attempt := (h.attempt_at hst).leave rfl
  ending := (h.ending_at hst).running rfl rfl _

/-- R136: below the ceiling the attempt is counted, at it the run has failed with `ERR_TIMEOUT`. -/
theorem retryinc_regsOk {s t : State} (h : RegsOk s) (hs : Selects s .retryinc) (he : exec .retryinc s = .next t) :
    RegsOk t := by
  obtain ⟨ht, hst, hr⟩ := hs
  have herr : s.lastError = .none := (h.ending_at hst).error_none rfl
  have hle : s.retryCount.toNat ≤ 10 := h.attempt.retry_le_ten herr
  have hnext : (BitVec.ofNat 4 (s.retryCount.toNat + 1)).toNat = s.retryCount.toNat + 1 := Nat.mod_eq_of_lt (by omega)
  simp only [exec, execRetryinc, retryNext, Config.retryCeiling, gt_iff_lt] at he
  split at he
  · rename_i hceiling
    cases next_inj he
    exact h.terminal hst ht hr rfl (fun _ => id) (.inr ⟨by omega, rfl⟩) (fun _ => by omega) nofun
  · rename_i hceiling
    cases next_inj he
    exact { read := by simpa [ht, hr] using ReadOk.over .sendCtrl
            block := (h.block_at hst).goto (h.block_at hst).byte_index fun _ => rfl
            attempt := { h.attempt_at hst with
              pending_nak := by simp [attemptState], retry_le := .inl (by simp only [goto_retryCount]; omega)
              retry_pos := fun _ => by simp only [goto_retryCount]; omega, error_timeout := by simp [herr] }
            ending := (h.ending_at hst).running rfl rfl _ }

/-- The transmit port and stream are no registers: a write asks only for what happens once it is accepted. -/
theorem RegsOk.write {s : State} (h : RegsOk s) (b : Byte) (after : State → State)
    (hafter : RegsOk (after { s with tx := s.tx ++ [b], txValid := true, txData := b })) :
    RegsOk (chanWrite b after s) := by
  obtain hready | hready := Bool.eq_false_or_eq_true s.inp.txReady
  · rwa [chanWrite_ready b after s hready]
  · rw [chanWrite_waits b after s hready]
    exact { h with }

/-- R137: `NAK` is pending from here to the end of the attempt. -/
theorem sendctl_regsOk {s t : State} (h : RegsOk s) (hs : Selects s .sendctl) (he : exec .sendctl s = .next t) :
    RegsOk t := by
  obtain ⟨ht, hst, hr⟩ := hs
  cases next_inj he
  exact h.write _ _
    { read := by simpa [ht, hr] using ReadOk.over .awaitStart
      block := (h.block_at hst).goto (h.block_at hst).byte_index fun _ => rfl
      attempt := { h.attempt_at hst with
        pending_ack := .inr rfl, pending_nak := fun _ => rfl
        retry_pos := fun _ => (h.attempt_at hst).retry_pos (.inr rfl) }
      ending := (h.ending_at hst).running rfl rfl _ }

/-- R138: the bytes of the abandoned block are taken off again. -/
theorem BlockOk.rollBack {len cap bi : Nat} {exp : Byte} (h : BlockOk .reject len cap bi exp) :
    BlockOk .loopCheck (len - bi) cap 0 exp :=
  { h with
    byte_index := rfl, byte_index_le := Nat.zero_le _, headroom := nofun
    length_le := (Nat.sub_le _ _).trans h.length_le }

theorem reject_regsOk {s t : State} (h : RegsOk s) (hs : Selects s .reject) (he : exec .reject s = .next t) :
    RegsOk t := by
  obtain ⟨ht, hst, hr⟩ := hs
  cases next_inj he
  exact h.goto_loopCheck hst ht hr rfl h.attempt.pending_ack (h.block_at hst).rollBack

/-- R178: 128 more bytes are committed, and the next number is expected. -/
theorem BlockOk.commit {len cap bi : Nat} {exp : Byte} (h : BlockOk .advance len cap bi exp) :
    BlockOk .loopCheck len cap 0 (nextBlock exp) := by
  have hbi : bi = 128 := h.byte_index
  have hle := h.byte_index_le
  have hwhole := h.whole_blocks
  have hnumber : nextBlock exp = BitVec.ofNat 8 (1 + (len - bi) / 128 + 1) := by
    simp [nextBlock, h.block_number, BitVec.ofNat_add]
  refine { h with byte_index := rfl, byte_index_le := Nat.zero_le _, headroom := nofun, whole_blocks := by omega,
                  block_number := ?_ }
  rw [hnumber]
  congr 1
  omega

theorem advance_regsOk {s t : State} (h : RegsOk s) (hs : Selects s .advance) (he : exec .advance s = .next t) :
    RegsOk t := by
  obtain ⟨ht, hst, hr⟩ := hs
  cases next_inj he
  exact h.goto_loopCheck hst ht hr rfl (.inl rfl) (h.block_at hst).commit

/-- R166: the duplicate is acknowledged in the next attempt. -/
theorem flushDup_timeout_regsOk {s : State} (h : RegsOk s) (ht : s.tst = .off) (hst : s.st = .flushDup) :
    RegsOk ({ s.consume with pendingAck := Config.ack }.goto .loopCheck) :=
  (h.consume ht).goto_loopCheck hst ht rfl rfl (.inl rfl)
    ((h.block_at hst).goto (x := .loopCheck) (h.block_at hst).byte_index nofun)

/-- R168. -/
theorem flushDesync_timeout_regsOk {s : State} (h : RegsOk s) (ht : s.tst = .off) (hst : s.st = .flushDesync) :
    RegsOk (raise .blockDesync { s.consume with lastError := .block }) :=
  have hle := h.attempt.retry_le_ten ((h.ending_at hst).error_none rfl)
  (h.consume ht).terminal hst ht rfl rfl (fun _ => id) (.inl hle) nofun nofun

/-- R170: `byte_index` is 0 already. -/
theorem invblkOk_regsOk {s t : State} (h : RegsOk s) {b : Byte} (hs : Selects s (.invblkOk b))
    (he : exec (.invblkOk b) s = .next t) : RegsOk t := by
  obtain ⟨ht, hst, -⟩ := hs
  cases next_inj he
  have hbi : s.byteIndex.toNat = 0 := (h.block_at hst).byte_index
  have hgoto : RegsOk (s.consume.goto .readPayload) :=
    h.goto_attempt hst ht rfl rfl fun n (hn : n = 0) => by simp [byteIndexOk, hn]
  exact { hgoto with block := by simpa [hbi] using hgoto.block }

/-- R174: one more byte of the block in progress, the 128th being its last. -/
theorem BlockOk.store {len cap : Nat} {n exp : Byte} (h : BlockOk .readPayload len cap n.toNat exp) :
    BlockOk (if n + 1#8 = 128#8 then .readCksum else .readPayload) (len + 1) cap (n + 1#8).toNat exp := by
  have hn : n.toNat < 128 := h.byte_index
  have hroom : len - n.toNat + 128 ≤ cap := h.headroom rfl
  have hle := h.byte_index_le
  have hnext : (n + 1#8).toNat = n.toNat + 1 := BitVec.toNat_add_of_lt (show n.toNat + 1 < 2 ^ 8 by omega)
  have hcommitted : len + 1 - (n + 1#8).toNat = len - n.toNat := by omega
  refine ⟨?_, by omega, by omega, fun _ => by rwa [hcommitted], hcommitted ▸ h.whole_blocks,
    hcommitted ▸ h.block_number⟩
  split
  · rename_i hlast
    exact congrArg BitVec.toNat hlast
  · rename_i hmore
    have hne : n.toNat + 1 ≠ 128 := fun h128 => hmore (BitVec.eq_of_toNat_eq (hnext.trans h128))
    exact show (n + 1#8).toNat < 128 by omega

theorem payloadByte_regsOk {s t : State} (h : RegsOk s) {b : Byte} (hs : Selects s (.payloadByte b))
    (he : exec (.payloadByte b) s = .next t) : RegsOk t := by
  obtain ⟨ht, hst, -⟩ := hs
  cases next_inj he
  exact { read := by simpa [ht] using ReadOk.over _
          block := (h.block_at hst).store
          attempt := (h.attempt_at hst).within rfl _
          ending := (h.ending_at hst).running rfl (by simp only [goto_st]; split <;> rfl) _ }

/-- R139. -/
theorem fail_regsOk {s t : State} (h : RegsOk s) (hs : Selects s .fail) (he : exec .fail s = .next t) : RegsOk t := by
  obtain ⟨ht, hst, hr⟩ := hs
  cases next_inj he
  exact { read := by simpa [ht, hr] using ReadOk.over .sendCan
          block := (h.block_at hst).goto (h.block_at hst).byte_index nofun
          attempt := (h.attempt_at hst).leave rfl
          ending := { h.ending_at hst with can_count := show 0 < 3 by decide } }

/-- R140: the third `CAN` ends the run. -/
theorem EndOk.cancel {e : LastError} {len cap : Nat} {n : BitVec 2} (h : EndOk .sendCan e len cap n.toNat) :
    EndOk (if n + 1#2 = 3#2 then .failed else .sendCan) e len cap (n + 1#2).toNat := by
  have hn : n.toNat < 3 := h.can_count
  have hnext : (n + 1#2).toNat = n.toNat + 1 := BitVec.toNat_add_of_lt (show n.toNat + 1 < 2 ^ 2 by omega)
  split
  · rename_i hlast
    exact { h with can_count := congrArg BitVec.toNat hlast }
  · rename_i hmore
    have hne : n.toNat + 1 ≠ 3 := fun h3 => hmore (BitVec.eq_of_toNat_eq (hnext.trans h3))
    exact { h with can_count := show (n + 1#2).toNat < 3 by omega }

theorem sendcan_regsOk {s t : State} (h : RegsOk s) (hs : Selects s .sendcan) (he : exec .sendcan s = .next t) :
    RegsOk t := by
  obtain ⟨ht, hst, hr⟩ := hs
  cases next_inj he
  exact h.write _ _
    { read := by simpa [ht, hr] using ReadOk.over _
      block := (h.block_at hst).goto (by simp only [goto_st]; split <;> exact (h.block_at hst).byte_index)
        (by simp only [goto_st]; split <;> exact nofun)
      attempt := (h.attempt_at hst).leave (by simp only [goto_st]; split <;> rfl)
      ending := (h.ending_at hst).cancel }

/-- R141: `last_error` is `ERR_NONE` already. -/
theorem finack_regsOk {s t : State} (h : RegsOk s) (hs : Selects s .finack) (he : exec .finack s = .next t) :
    RegsOk t := by
  obtain ⟨ht, hst, hr⟩ := hs
  have herr : s.lastError = .none := (h.ending_at hst).error_none rfl
  have hgoto : RegsOk (s.consume.goto .done) := h.goto_attempt hst ht rfl rfl fun _ => id
  cases next_inj he
  exact h.write _ _
    { hgoto with
      read := by simpa [ht, hr] using ReadOk.over .done
      attempt := by simpa [herr] using hgoto.attempt
      ending := by simpa [herr] using hgoto.ending }

/-! ## The invariant along a step -/

/-- Every operation the block selects keeps the clauses about registers. -/
theorem exec_regsOk {s t : State} {i : Instr} (h : RegsOk s) (hs : Selects s i) (he : exec i s = .next t) : RegsOk t := by
  cases i with
  | trdArm w => cases next_inj he; exact trdArm_regsOk h hs
  | trdPoll => exact trdPoll_regsOk h hs he
  | trdChk => exact trdChk_regsOk h hs he
  | start c =>
    simp only [exec, execStart] at he
    split at he <;> cases next_inj he
    · exact h
    · exact startRun_regsOk c s
  | loopchk => exact loopchk_regsOk h hs he
  | presend => exact presend_regsOk h hs he
  | retryinc => exact retryinc_regsOk h hs he
  | sendctl => exact sendctl_regsOk h hs he
  | reject => exact reject_regsOk h hs he
  | fail => exact fail_regsOk h hs he
  | sendcan => exact sendcan_regsOk h hs he
  | finack => exact finack_regsOk h hs he
  | advance => exact advance_regsOk h hs he
  | invblkOk b => exact invblkOk_regsOk h hs he
  | payloadByte b => exact payloadByte_regsOk h hs he
  | flushResync r =>
    obtain ⟨ht, hst, -⟩ := hs
    cases r <;> cases next_inj he
    · exact h.consume ht
    · exact flushResync_timeout_regsOk h ht hst
  | flushDup r =>
    obtain ⟨ht, hst, -⟩ := hs
    cases r <;> cases next_inj he
    · exact h.consume ht
    · exact flushDup_timeout_regsOk h ht hst
  | flushDesync r =>
    obtain ⟨ht, hst, -⟩ := hs
    cases r <;> cases next_inj he
    · exact h.consume ht
    · exact flushDesync_timeout_regsOk h ht hst
  | awaitSoh | awaitEot | blknumDup | blknumBad | blknumOk | cksumOk =>
    obtain ⟨ht, hst, -⟩ := hs
    cases next_inj he
    exact h.goto_attempt hst ht rfl rfl fun _ => id
  | awaitTo | awaitOther | blknumTo | invblkBad | invblkTo | payloadTo | cksumBad | cksumTo =>
    obtain ⟨ht, hst, -⟩ := hs
    cases next_inj he
    exact h.retry hst ht rfl rfl
  | soh | eot | ack | nak | can | dataFrame | eotFrame | canSequence => cases hs

/-- R38: a port on which nothing is offered. -/
theorem PortOk.silent {s : State} (hv : s.txValid = false) : PortOk s := ⟨by simp [hv], by simp [hv]⟩

/-- The bytes the block writes (R137, R140, R141). -/
theorem writing_byte {s : State} (hack : s.pendingAck = 0x06#8 ∨ s.pendingAck = 0x15#8) {b : Byte}
    (hw : writing s = some b) : b = 0x06#8 ∨ b = 0x15#8 ∨ b = 0x18#8 := by
  unfold writing at hw
  split at hw
  · exact Option.some.inj hw ▸ hack.imp_right .inl
  · exact .inr (.inr (Option.some.inj hw).symm)
  · exact .inl (Option.some.inj hw).symm
  all_goals cases hw

/-- An offer that is not accepted stands, and one that is needs nothing more. -/
theorem outside_portOk {s t : State} (h : Outside s t) (hv : s.txValid = false)
    (hack : s.pendingAck = 0x06#8 ∨ s.pendingAck = 0x15#8) : PortOk t := by
  cases h with
  | quiet hport | store _ _ hport => exact .silent (hport.txValid.trans hv)
  | send b after hw hafter =>
    have hb := writing_byte hack hw
    obtain hready | hready := Bool.eq_false_or_eq_true s.inp.txReady
    · rw [chanWrite_ready b after s hready]
      obtain ⟨hport, -⟩ := hafter { s with tx := s.tx ++ [b], txValid := true, txData := b }
      exact ⟨fun _ hn => by simp [hport.inp, hready] at hn, fun _ => by simpa [hport.txData] using hb⟩
    · rw [chanWrite_waits b after s hready]
      exact ⟨fun _ _ => hw, fun _ => hb⟩

theorem outside_mem_wf {s t : State} (h : Outside s t) (hm : Memory.wf s.mem = true) : Memory.wf t.mem = true := by
  cases h with
  | quiet _ hmem => rwa [hmem]
  | store off b _ hmem => rw [hmem]; exact Memory.write_wf _ _ _ hm
  | send b after _ hafter =>
    unfold chanWrite
    split
    · rwa [(hafter _).2]
    · exact hm

/-- The begin of a cycle: the port falls silent, and a timed read begins in a reading state only. -/
theorem cycleState_inv {s : State} (h : s.Inv) (inp : Inputs) : (cycleState inp s).Inv := by
  by_cases harm : reading s.st = true ∧ s.tst = .off ∧ s.result = none
  · obtain ⟨hread, ht, hr⟩ := harm
    rw [cycleState_arms s inp hread ht hr]
    exact { h with tst_reading := fun _ => hread, result_reading := by simp [hr], tx_port := nofun, tx_byte := nofun }
  · rw [cycleState_idle s inp (by simpa only [not_and_or, Bool.not_eq_true] using harm)]
    exact { h with tx_port := nofun, tx_byte := nofun }

/-- Settles O39: every clause is read off the column "after `rst`" of R44. -/
theorem resetMeetsTheInvariant : Obligations.ResetMeetsTheInvariant :=
  (inv_iff State.reset).2
    ⟨{ read := ReadOk.over .idle
       block := ⟨rfl, le_rfl, le_rfl, nofun, ⟨0, rfl⟩, rfl⟩
       attempt := .outside rfl (.inr rfl) (.inl (Nat.zero_le _)) nofun
       ending := ⟨fun he => absurd rfl he, nofun, rfl⟩ }, .silent rfl, Memory.reset_wf⟩

theorem hardReset_inv {s : State} (h : s.Inv) : (hardReset s).Inv :=
  { resetMeetsTheInvariant with tx_port := nofun, tx_byte := nofun, mem_wf := h.mem_wf }

/-- Whoever moves keeps the invariant. -/
theorem moved_inv {u t : State} {e : Event} (h : u.Inv) (hm : Moved u e t) : t.Inv := by
  cases hm with
  | rst inp => exact hardReset_inv (s := beginCycle inp u) { h with tx_port := nofun, tx_byte := nofun }
  | op inp i _ _ hs he =>
    obtain ⟨hregs, -, hmem⟩ := (inv_iff _).1 (cycleState_inv h inp)
    have hout := exec_outside hs he
    exact (inv_iff t).2
      ⟨exec_regsOk hregs hs he, outside_portOk hout (cycleState_txValid inp u) hregs.attempt.pending_ack,
        outside_mem_wf hout hmem⟩
  | rest inp => exact cycleState_inv h inp
  | wire w _ _ he => obtain ⟨bs, rfl | rfl⟩ := exec_wire he <;> exact { h with }
  | store off b => exact { h with mem_wf := Memory.write_wf _ _ _ h.mem_wf }
  | read => exact h
  | arrive | lose | take | write => exact { h with }

/-- Settles O40: the move is made in a state that differs in the script and the counter of free values only. -/
theorem everyStepKeepsTheInvariant : Obligations.EveryStepKeepsTheInvariant := by
  intro s t h hstep
  obtain ⟨es, n, hmoved⟩ := step_moved s t hstep
  exact moved_inv (u := { s with script := es, draws := n }) { h with } hmoved

end Sys2Proof.Proofs.Invariant
end

section
/-! PROOFS. The other statements of 10_state.md: the values after reset (R44), the flags (R35), START (R34), the retry
counter (R26), the transmit port (R38) and the codes of the tables (R20, R22). -/

namespace Sys2Proof.Proofs.Registers

open Sys2Proof.Machine Sys2Proof.Proofs.Effects

/-- Settles O47: of the moves, only an operation can raise the counter, and a reset clears it. -/
theorem retryCountRisesOnlyInRetryInc : Obligations.RetryCountRisesOnlyInRetryInc := by
  intro s t hstep
  obtain ⟨es, n, hmoved⟩ := step_moved s t hstep
  generalize (nextEvent s).1 = e at hmoved
  cases hmoved with
  | rst => exact .inr (.inl rfl)
  | op inp i _ _ hs he => simpa using exec_retryCount hs he
  | rest inp => exact .inl (cycleState_retryCount inp _)
  | wire w _ _ he => obtain ⟨bs, rfl | rfl⟩ := exec_wire he <;> exact .inl rfl
  | arrive | lose | take | read | write | store => exact .inl rfl

/-- Settles O60: the cycle begins with `tx_valid` low, so it is high only where the operation has offered a byte. -/
theorem writesHappenWhenValidAndReady : Obligations.WritesHappenWhenValidAndReady := by
  intro s t inp he hrst hstep
  obtain ⟨es, n, hmoved⟩ := step_moved s t hstep
  rw [he] at hmoved
  cases hmoved with
  | rst _ hr => simp [hrst] at hr
  | op _ i _ _ hs hi => simpa using (exec_outside hs hi).handshake (cycleState_txValid inp _)
  | rest => simp

/-- Settles O37. -/
theorem resetValues : Obligations.ResetValues := by
  unfold Obligations.ResetValues
  decide

/-- Settles O38: each flag is the test of `st` it names. -/
theorem statusFlagsAndResult : Obligations.StatusFlagsAndResult := fun _ =>
  ⟨decide_eq_true_iff, decide_eq_true_iff, decide_eq_true_iff, rfl, rfl⟩

/-- R130: at rest START is accepted. -/
theorem exec_start {s : State} (h : busy s = false) (c : Nat) : exec (.start c) s = .next (startRun c s) := by
  simp [exec, execStart, h]

/-- Settles O54: `startRun` writes every register but `deadline`, and the other fields agree. -/
theorem nothingSurvivesStart : Obligations.NothingSurvivesStart := by
  intro s u c hs hu htxValid htxData hrxPop hbufWe hbufOff hbufWdata hmem hrx htx hinp hscript hdraws
  refine ⟨startRun c s, exec_start hs c, ?_⟩
  rw [exec_start hu]
  simp only [startRun, htxValid, htxData, hrxPop, hbufWe, hbufOff, hbufWdata, hmem, hrx, htx, hinp, hscript, hdraws]

/-- Settles O59. -/
theorem wordsOfTheTablesDecode : Obligations.WordsOfTheTablesDecode := by
  unfold Obligations.WordsOfTheTablesDecode
  decide

end Sys2Proof.Proofs.Registers
end

section
/-! PROOFS. The four spaces as the block meets them (20_memory.md R60): what a move of each agent does to the two
streams and to the buffer (R62, R63, R73, R74). -/

namespace Sys2Proof.Proofs.Spaces

open Sys2Proof.Machine Sys2Proof.Proofs.Effects

/-! ## Wire items -/

/-- Settles O30: each received row is `receive` of its item's bytes. -/
theorem receivedItemsJoinTheReceiveStream : Obligations.ReceivedItemsJoinTheReceiveStream := fun _ =>
  ⟨rfl, rfl, rfl, fun _ _ _ _ => rfl⟩

/-- Settles O31: each written row is `transmit` of its item's bytes. -/
theorem writtenItemsJoinTheTransmitStream : Obligations.WrittenItemsJoinTheTransmitStream := fun _ =>
  ⟨rfl, rfl, rfl, rfl⟩

/-! ## The channel and the host -/

/-- The byte that is lost leaves its place between those that came before it and those that came after. -/
theorem eraseIdx_behind_shown {α : Type} (shown b : α) (older newer : List α) :
    (shown :: older ++ b :: newer).eraseIdx (older.length + 1) = shown :: older ++ newer := by
  simp [List.eraseIdx_append_of_length_le]

/-- Settles O34: the move is made in the state without it, and a loss takes out one place of the queue. -/
theorem channelMovesChangeTheQueueOnly : Obligations.ChannelMovesChangeTheQueueOnly := by
  intro s es
  refine ⟨fun b hs => ?_, fun shown older b newer hrx hs => ?_, fun k hlen hs => ?_⟩
  · rw [step_event s _ es hs]
    rfl
  · rw [step_event s _ es hs]
    simp only [stepEvent, hrx, eraseIdx_behind_shown]
  · rw [step_event s _ es hs]
    simp only [stepEvent, List.eraseIdx_of_length_le hlen]

/-- R204. -/
theorem whileAtRest_rest {s : State} (h : busy s = false) (t : State) : whileAtRest s t = .next t := by
  simp [whileAtRest, h]

/-- R74, U6. -/
theorem whileAtRest_busy {s : State} (h : busy s = true) (t : State) :
    whileAtRest s t = .refused .exclusivityBroken := by
  simp [whileAtRest, h]

/-- Settles O35: each of the host's four moves is made through `whileAtRest`. -/
theorem hostMovesHappenAtRestOnly : Obligations.HostMovesHappenAtRestOnly := by
  constructor
  · intro s es hrest
    refine ⟨fun hs => ?_, fun off hs => ?_, fun b hs => ?_, fun off b hs => ?_⟩
    case refine_4 =>
      exact ⟨Memory.write s.mem off b, (step_event s _ es hs).trans (whileAtRest_rest hrest _),
        Memory.read_write_same _ _ _, fun a => Memory.read_write_other _ _ a _⟩
    all_goals exact (step_event s _ es hs).trans (whileAtRest_rest hrest _)
  · intro s es hbusy hs
    obtain hs | ⟨off, hs⟩ | ⟨b, hs⟩ | ⟨off, b, hs⟩ := hs
    all_goals exact (step_event s _ es hs).trans (whileAtRest_busy hbusy _)

/-! ## The operations of the block -/

/-- The two streams, the buffer and its write port are as they were. -/
structure SameSpaces (s t : State) : Prop where
  rx : t.rx = s.rx
  tx : t.tx = s.tx
  mem : t.mem = s.mem
  bufWe : t.bufWe = s.bufWe

/-- What an operation does to the streams and the buffer, by its environment operations (R73): there is at most one,
and only `PAYLOAD.BYTE` stores. -/
inductive Effect (s : State) : Instr → State → Prop
  | quiet {i : Instr} {t : State} : envOps i s = [] → SameSpaces s t → Effect s i t
  | clock {i : Instr} {t : State} : envOps i s = [.now s.inp.now] → SameSpaces s t → Effect s i t
  | poll {i : Instr} {t : State} : envOps i s = [.chanPoll s.rx.head?] → SameSpaces { s with rx := s.rx.tail } t →
      Effect s i t
  | write {i : Instr} {t : State} (b : Byte) : envOps i s = [.chanWrite b] →
      SameSpaces { s with tx := s.tx ++ [b] } t → Effect s i t
  | store {t : State} (b : Byte) : exec (.payloadByte b) s = .next t → Effect s (.payloadByte b) t

/-- A sending operation writes its byte in the cycle that accepts it, and until then nothing. -/
theorem chanWrite_effect {s : State} {i : Instr} {b : Byte} (hops : envOps i s = envWrite b s) {after : State → State}
    (hafter : ∀ u, SameSpaces u (after u)) : Effect s i (chanWrite b after s) := by
  obtain hready | hready := Bool.eq_false_or_eq_true s.inp.txReady
  · rw [chanWrite_ready b after s hready]
    obtain ⟨hrx, htx, hmem, hwe⟩ := hafter { s with tx := s.tx ++ [b], txValid := true, txData := b }
    exact .write b (by simp [hops, envWrite, hready]) ⟨hrx, htx, hmem, hwe⟩
  · rw [chanWrite_waits b after s hready]
    exact .quiet (by simp [hops, envWrite, hready]) ⟨rfl, rfl, rfl, rfl⟩

/-- R112, nothing waiting. -/
theorem exec_trdPoll_empty {s : State} (h : s.rx = []) : exec .trdPoll s = .next { s with tst := .chk } := by
  simp only [exec, execTrdPoll, chanPoll_empty s h]

/-- R112, a byte waiting. -/
theorem exec_trdPoll_byte {s : State} {b : Byte} {rest : List Byte} (h : s.rx = b :: rest) :
    exec .trdPoll s = .next { s with rx := rest, rxPop := true, result := some (.byte b), tst := .off } := by
  simp only [exec, execTrdPoll, chanPoll_byte s b rest h]

/-- R112: the poll takes the oldest byte, if there is one. -/
theorem trdPoll_effect {s t : State} (he : exec .trdPoll s = .next t) : Effect s .trdPoll t := by
  cases hrx : s.rx with
  | nil =>
    rw [exec_trdPoll_empty hrx] at he
    cases next_inj he
    exact .poll rfl ⟨by simp [hrx], rfl, rfl, rfl⟩
  | cons b rest =>
    rw [exec_trdPoll_byte hrx] at he
    cases next_inj he
    exact .poll rfl ⟨by simp [hrx], rfl, rfl, rfl⟩

/-- Every operation of the block touches the spaces by its environment operations only. -/
theorem exec_effect {s t : State} {i : Instr} (hi : wireItem? i = none) (he : exec i s = .next t) : Effect s i t := by
  cases i with
  | trdPoll => exact trdPoll_effect he
  | trdArm w => cases next_inj he; exact .clock rfl ⟨rfl, rfl, rfl, rfl⟩
  | trdChk =>
    simp only [exec, execTrdChk] at he
    split at he <;> (cases next_inj he; exact .clock rfl ⟨rfl, rfl, rfl, rfl⟩)
  | payloadByte b => exact .store b he
  | sendctl | sendcan | finack => cases next_inj he; exact chanWrite_effect rfl fun _ => ⟨rfl, rfl, rfl, rfl⟩
  | start | loopchk | presend | retryinc =>
    simp only [exec, execStart, execLoopchk, execPresend, execRetryinc] at he
    split at he <;> (cases next_inj he; exact .quiet rfl ⟨rfl, rfl, rfl, rfl⟩)
  | flushResync r | flushDup r | flushDesync r =>
    cases r <;> (cases next_inj he; exact .quiet rfl ⟨rfl, rfl, rfl, rfl⟩)
  | reject | fail | awaitTo | awaitSoh | awaitEot | awaitOther | blknumTo | blknumDup | blknumBad | blknumOk
  | invblkOk | invblkBad | invblkTo | payloadTo | cksumOk | cksumBad | cksumTo | advance =>
    cases next_inj he
    exact .quiet rfl ⟨rfl, rfl, rfl, rfl⟩
  | soh | eot | ack | nak | can | dataFrame | eotFrame | canSequence => cases hi

/-- Settles O51: each of the five effects is its environment operation. -/
theorem environmentOperationsAccountForTheStreams : Obligations.EnvironmentOperationsAccountForTheStreams := by
  intro i s t hi he
  cases exec_effect hi he with
  | quiet hops hsame | clock hops hsame | write b hops hsame => simp [hops, hsame.tx, hsame.rx, hsame.mem]
  | poll hops hsame => cases hrx : s.rx <;> simp [hops, hsame.tx, hsame.rx, hsame.mem, hrx]
  | store b he => cases next_inj he; simp [envOps]

/-! ## The order of the streams -/

/-- At most the oldest byte leaves the receive queue, and both streams grow at their ends (R62, R63). -/
structure KeepsOrder (s t : State) : Prop where
  rx : ∃ n ≤ 1, ∃ bs, t.rx = s.rx.drop n ++ bs
  tx : ∃ bs, t.tx = s.tx ++ bs

theorem KeepsOrder.same {s t : State} (hrx : t.rx = s.rx) (htx : t.tx = s.tx) : KeepsOrder s t :=
  ⟨⟨0, by simp, [], by simp [hrx]⟩, [], by simp [htx]⟩

theorem KeepsOrder.take {s t : State} (hrx : t.rx = s.rx.tail) (htx : t.tx = s.tx) : KeepsOrder s t :=
  ⟨⟨1, le_rfl, [], by simp [hrx]⟩, [], by simp [htx]⟩

theorem KeepsOrder.receive {s t : State} {bs : List Byte} (hrx : t.rx = s.rx ++ bs) (htx : t.tx = s.tx) :
    KeepsOrder s t :=
  ⟨⟨0, by simp, bs, hrx⟩, [], by simp [htx]⟩

theorem KeepsOrder.transmit {s t : State} {bs : List Byte} (hrx : t.rx = s.rx) (htx : t.tx = s.tx ++ bs) :
    KeepsOrder s t :=
  ⟨⟨0, by simp, [], by simp [hrx]⟩, bs, htx⟩

/-- One environment operation at most: at most one byte is taken, and at most one written. -/
theorem Effect.keepsOrder {s t : State} {i : Instr} (h : Effect s i t) : KeepsOrder s t := by
  cases h with
  | quiet _ hsame | clock _ hsame => exact .same hsame.rx hsame.tx
  | poll _ hsame => exact .take hsame.rx hsame.tx
  | write b _ hsame => exact .transmit hsame.rx hsame.tx
  | store b he => cases next_inj he; exact .same rfl rfl

@[simp] theorem cycleState_rx (inp : Inputs) (s : State) : (cycleState inp s).rx = s.rx := beginRead_rx _
@[simp] theorem cycleState_mem (inp : Inputs) (s : State) : (cycleState inp s).mem = s.mem := beginRead_mem _
@[simp] theorem cycleState_capacity (inp : Inputs) (s : State) : (cycleState inp s).capacity = s.capacity :=
  beginRead_capacity _
@[simp] theorem cycleState_bufWe (inp : Inputs) (s : State) : (cycleState inp s).bufWe = false := beginRead_bufWe _

/-- What selects an operation of the block selects no wire row. -/
theorem wireItem_none_of_selects {s : State} {i : Instr} (h : Selects s i) : wireItem? i = none := by
  cases hw : wireItem? i with
  | none => rfl
  | some w =>
    rw [← wireInstr_wireItem i w hw] at h
    cases w <;> exact h.elim

/-- R230, U7: a reset adds at most the byte being written. -/
theorem hardReset_keepsOrder (s : State) : KeepsOrder s (hardReset s) := by
  refine ⟨(KeepsOrder.same (s := s) (t := s) rfl rfl).rx, ?_⟩
  simp only [hardReset, txAfterReset]
  split
  · split
    · exact ⟨_, rfl⟩
    · exact ⟨[], by simp⟩
  · exact ⟨[], by simp⟩

/-- Of the moves, only the channel's loss takes a byte from within the queue. -/
theorem moved_keepsOrder {u t : State} {e : Event} (hm : Moved u e t) :
    KeepsOrder u t ∨ ∃ k, e = .lose k ∧ t = { u with rx := u.rx.eraseIdx (k + 1) } := by
  cases hm with
  | lose k => exact .inr ⟨k, rfl, rfl⟩
  | rst inp => exact .inl { hardReset_keepsOrder (beginCycle inp u) with }
  | op inp i _ _ hs he =>
    obtain ⟨hrx, htx⟩ := (exec_effect (wireItem_none_of_selects hs) he).keepsOrder
    exact .inl ⟨by simpa using hrx, by simpa using htx⟩
  | rest inp => exact .inl (.same (cycleState_rx inp u) (cycleState_tx inp u))
  | wire w _ _ he =>
    obtain ⟨bs, rfl | rfl⟩ := exec_wire he
    · exact .inl (.receive rfl rfl)
    · exact .inl (.transmit rfl rfl)
  | arrive b => exact .inl (.receive rfl rfl)
  | write b => exact .inl (.transmit rfl rfl)
  | take => exact .inl (.take rfl rfl)
  | read | store => exact .inl (.same rfl rfl)

/-- Settles O50: the state in which the move is made has the streams of the state before. -/
theorem streamsKeepTheirOrder : Obligations.StreamsKeepTheirOrder := by
  intro s t hstep
  obtain ⟨es, n, hmoved⟩ := step_moved s t hstep
  obtain ⟨hrx, htx⟩ | ⟨k, he, rfl⟩ := moved_keepsOrder hmoved
  · exact ⟨.inl hrx, htx⟩
  · exact ⟨.inr ⟨k, he, rfl⟩, [], by simp⟩

end Sys2Proof.Proofs.Spaces
end

section
/-! PROOFS. The caller's buffer: stores and results stay within the headroom (20_memory.md R70), and what it holds
never matters to the block (R68). -/

namespace Sys2Proof.Proofs.Buffer

open Sys2Proof.Machine Sys2Proof.Proofs.Effects Sys2Proof.Proofs.Invariant Sys2Proof.Proofs.Spaces

/-! ## The headroom -/

/-- R42, R70: in `READ_PAYLOAD` the block in progress has room, and `length` is inside it. -/
theorem payload_below_headroom {s : State} (h : s.Inv) (hst : s.st = .readPayload) :
    s.length < 128 * (s.capacity / 128) := by
  have hbi : s.byteIndex.toNat < 128 := by simpa [hst, byteIndexOk] using h.byte_index
  have hroom := h.headroom (by rw [hst]; rfl)
  have hle := h.byte_index_le
  have hwhole := h.whole_blocks
  omega

/-- R42, R70: in `DONE` the loop condition held with the blocks committed, so one more would have had room. -/
theorem done_below_headroom {s : State} (h : s.Inv) (hst : s.st = .done) :
    128 ∣ resultLen s ∧ resultLen s ≤ 128 * (s.capacity / 128 - 1) := by
  have hbi : s.byteIndex.toNat = 0 := by simpa [hst, byteIndexOk] using h.byte_index
  have hroom := h.headroom (by rw [hst]; rfl)
  have hwhole := h.whole_blocks
  rw [hbi, Nat.sub_zero] at hroom hwhole
  rw [resultLen]
  exact ⟨hwhole, by omega⟩

/-- The bound of R70 on one block cycle from `s` to `t`. -/
structure StoresBelow (s t : State) : Prop where
  port : t.bufWe = true → t.bufOff < 128 * (t.capacity / 128)
  frame : ∀ a, 128 * (s.capacity / 128) ≤ a → Memory.read t.mem a = Memory.read s.mem a

/-- A cycle in which `buf_we` is low and the buffer is as it was. -/
theorem StoresBelow.silent {s t : State} (hwe : t.bufWe = false) (hmem : t.mem = s.mem) : StoresBelow s t :=
  ⟨by simp [hwe], fun _ _ => by rw [hmem]⟩

theorem StoresBelow.same {s t : State} (h : SameSpaces s t) (hwe : s.bufWe = false) : StoresBelow s t :=
  .silent (h.bufWe.trans hwe) h.mem

/-- R174: the one store of the block is at `length`. -/
theorem payloadByte_storesBelow {s t : State} {b : Byte} (hlt : s.length < 128 * (s.capacity / 128))
    (he : exec (.payloadByte b) s = .next t) : StoresBelow s t := by
  cases next_inj he
  exact ⟨fun _ => hlt, fun a ha => Memory.read_write_other _ _ _ _ (by omega)⟩

theorem exec_storesBelow {s t : State} {i : Instr} (h : s.Inv) (hwe : s.bufWe = false) (hs : Selects s i)
    (he : exec i s = .next t) : StoresBelow s t := by
  cases exec_effect (wireItem_none_of_selects hs) he with
  | quiet _ hsame | clock _ hsame => exact .same hsame hwe
  | poll _ hsame | write _ _ hsame => exact .silent (hsame.bufWe.trans hwe) hsame.mem
  | store b he =>
    obtain ⟨-, hst, -⟩ := hs
    exact payloadByte_storesBelow (payload_below_headroom h hst) he

/-- Settles O45: of what a block cycle can do, only `PAYLOAD.BYTE` stores, and in its state the invariant gives room. -/
theorem storesAndResultsStayInTheHeadroom : Obligations.StoresAndResultsStayInTheHeadroom := by
  refine ⟨fun s t inp h he hstep => ?_, fun s h hst => payload_below_headroom h hst,
    fun s h hst => done_below_headroom h hst⟩
  obtain ⟨es, n, hmoved⟩ := step_moved s t hstep
  rw [he] at hmoved
  cases hmoved with
  | rst => exact ⟨nofun, fun _ _ => rfl⟩
  | op _ i _ _ hs hi =>
    have hinv := cycleState_inv (s := { s with script := es, draws := n }) { h with } inp
    obtain ⟨hport, hframe⟩ := exec_storesBelow hinv (cycleState_bufWe inp _) hs hi
    exact ⟨hport, by simpa using hframe⟩
  | rest => exact ⟨by simp, fun _ _ => by simp⟩

/-! ## The contents -/

/-- The state with other contents of the buffer. -/
def withBuffer (m : Memory) (s : State) : State := { s with mem := m }

/-- Two outcomes that differ in the buffer of the next state at most. -/
inductive SameButBuffer : Result → Result → Prop
  | next (t : State) (m : Memory) : SameButBuffer (.next t) (.next (withBuffer m t))
  | fault (f : Fault) : SameButBuffer (.fault f) (.fault f)
  | refused (r : Refusal) : SameButBuffer (.refused r) (.refused r)

theorem SameButBuffer.ite {a b a' b' : Result} (c : Prop) [Decidable c] (hthen : SameButBuffer a a')
    (helse : SameButBuffer b b') : SameButBuffer (if c then a else b) (if c then a' else b') := by
  split <;> assumption

theorem SameButBuffer.of_next {t : State} {o : Result} (h : SameButBuffer (.next t) o) :
    ∃ m, o = .next { t with mem := m } := by
  cases h with
  | next _ m => exact ⟨m, rfl⟩

theorem SameButBuffer.of_fault {f : Fault} {o : Result} (h : SameButBuffer (.fault f) o) : o = .fault f := by
  cases h
  rfl

theorem SameButBuffer.of_refused {r : Refusal} {o : Result} (h : SameButBuffer (.refused r) o) : o = .refused r := by
  cases h
  rfl

theorem chanWrite_sameButBuffer (s : State) (m : Memory) (b : Byte) {after : State → State}
    (hafter : ∀ u, after (withBuffer m u) = withBuffer m (after u)) :
    SameButBuffer (.next (chanWrite b after s)) (.next (chanWrite b after (withBuffer m s))) := by
  have hwrite : chanWrite b after (withBuffer m s) = withBuffer m (chanWrite b after s) := by
    obtain hready | hready := Bool.eq_false_or_eq_true s.inp.txReady
    · rw [chanWrite_ready b after s hready, chanWrite_ready b after (withBuffer m s) hready, ← hafter]
      rfl
    · rw [chanWrite_waits b after s hready, chanWrite_waits b after (withBuffer m s) hready]
      rfl
  rw [hwrite]
  exact .next _ m

/-- R68: an operation sees the registers, the ports and the streams. -/
theorem exec_sameButBuffer (i : Instr) (s : State) (m : Memory) :
    SameButBuffer (exec i s) (exec i (withBuffer m s)) := by
  cases i with
  | trdPoll =>
    cases hrx : s.rx with
    | nil =>
      rw [exec_trdPoll_empty hrx, exec_trdPoll_empty (s := withBuffer m s) hrx]
      exact .next _ m
    | cons b rest =>
      rw [exec_trdPoll_byte hrx, exec_trdPoll_byte (s := withBuffer m s) hrx]
      exact .next _ m
  | payloadByte b => exact .next _ (Memory.write m s.length b)
  | trdChk | start | loopchk | presend | retryinc => exact .ite _ (.next _ m) (.next _ m)
  | sendctl | sendcan | finack => exact chanWrite_sameButBuffer s m _ fun _ => rfl
  | flushResync r | flushDup r | flushDesync r => cases r <;> exact .next _ m
  | trdArm | reject | fail | awaitTo | awaitSoh | awaitEot | awaitOther | blknumTo | blknumDup | blknumBad | blknumOk
  | invblkOk | invblkBad | invblkTo | payloadTo | cksumOk | cksumBad | cksumTo | advance | soh | eot | ack | nak | can
  | dataFrame | eotFrame | canSequence => exact .next _ m

theorem cycleState_withBuffer (inp : Inputs) (s : State) (m : Memory) :
    cycleState inp (withBuffer m s) = withBuffer m (cycleState inp s) := by
  unfold cycleState beginRead
  rw [apply_ite (withBuffer m)]
  rfl

theorem fetch_withBuffer (s : State) (m : Memory) : fetch (withBuffer m s) = fetch s := rfl

theorem nextEvent_withBuffer (s : State) (m : Memory) :
    nextEvent (withBuffer m s) = ((nextEvent s).1, withBuffer m (nextEvent s).2) := by
  unfold nextEvent withBuffer
  cases s.script <;> rfl

/-- R68: a block cycle selects its operation by registers, ports and the event. -/
theorem blockCycle_sameButBuffer (inp : Inputs) (s : State) (m : Memory) :
    SameButBuffer (blockCycle inp s) (blockCycle inp (withBuffer m s)) := by
  cases hrst : inp.rst with
  | true =>
    simp only [blockCycle, hrst, if_true]
    exact .next _ m
  | false =>
    rw [blockCycle_runs _ _ hrst, blockCycle_runs _ _ hrst, cycleState_withBuffer, fetch_withBuffer]
    rcases fetch (cycleState inp s) with e | i
    · cases e with
      | atRest => exact .next _ m
      | _ => exact .fault _
    · exact exec_sameButBuffer i _ m

theorem stepEvent_sameButBuffer (e : Event) (s : State) (m : Memory) :
    SameButBuffer (stepEvent e s) (stepEvent e (withBuffer m s)) := by
  cases e with
  | cycle inp => exact blockCycle_sameButBuffer inp s m
  | arrive | lose => exact .next _ m
  | wire w => exact .ite _ (.refused _) (exec_sameButBuffer _ s m)
  | hostTake | hostRead | hostWrite => exact .ite _ (.refused _) (.next _ m)
  | hostStore off b => exact .ite _ (.refused _) (.next _ (Memory.write m off b))

theorem step_sameButBuffer (s : State) (m : Memory) : SameButBuffer (step s) (step (withBuffer m s)) := by
  simp only [step, nextEvent_withBuffer]
  exact stepEvent_sameButBuffer _ _ m

/-- Settles O52, outcome by outcome. -/
theorem bufferContentsNeverMatter : Obligations.BufferContentsNeverMatter := by
  intro s m
  have h := step_sameButBuffer s m
  exact ⟨fun t ht => SameButBuffer.of_next (ht ▸ h), fun f hf => SameButBuffer.of_fault (hf ▸ h),
    fun r hr => SameButBuffer.of_refused (hr ▸ h)⟩

end Sys2Proof.Proofs.Buffer
end

section
/-! PROOFS. The decoder (30_encoding.md R90 to R97, R103): what a selection decodes to, the classes of the result of a
timed read, and that decoding and encoding agree. -/

namespace Sys2Proof.Proofs.Decoding

open Sys2Proof.Machine Sys2Proof.Laws

/-! ## Decode of encode -/

/-- The round trip, row by row in the table's order. -/
theorem decode_encode : ∀ i : Instr, RoundTrip.Statement i
  | .trdArm w => RoundTrip.trdArm w
  | .trdPoll => RoundTrip.trdPoll
  | .trdChk => RoundTrip.trdChk
  | .start c => RoundTrip.start c
  | .loopchk => RoundTrip.loopchk
  | .presend => RoundTrip.presend
  | .flushResync r => RoundTrip.flushResync r
  | .retryinc => RoundTrip.retryinc
  | .sendctl => RoundTrip.sendctl
  | .reject => RoundTrip.reject
  | .fail => RoundTrip.fail
  | .sendcan => RoundTrip.sendcan
  | .finack => RoundTrip.finack
  | .awaitTo => RoundTrip.awaitTo
  | .awaitSoh => RoundTrip.awaitSoh
  | .awaitEot => RoundTrip.awaitEot
  | .awaitOther b => RoundTrip.awaitOther b
  | .blknumTo => RoundTrip.blknumTo
  | .blknumDup b => RoundTrip.blknumDup b
  | .blknumBad b => RoundTrip.blknumBad b
  | .blknumOk b => RoundTrip.blknumOk b
  | .flushDup r => RoundTrip.flushDup r
  | .flushDesync r => RoundTrip.flushDesync r
  | .invblkOk b => RoundTrip.invblkOk b
  | .invblkBad b => RoundTrip.invblkBad b
  | .invblkTo => RoundTrip.invblkTo
  | .payloadByte b => RoundTrip.payloadByte b
  | .payloadTo => RoundTrip.payloadTo
  | .cksumOk b => RoundTrip.cksumOk b
  | .cksumBad b => RoundTrip.cksumBad b
  | .cksumTo => RoundTrip.cksumTo
  | .advance => RoundTrip.advance
  | .soh => RoundTrip.soh
  | .eot => RoundTrip.eot
  | .ack => RoundTrip.ack
  | .nak => RoundTrip.nak
  | .can => RoundTrip.can
  | .dataFrame blk inv data cks => RoundTrip.dataFrame blk inv data cks
  | .eotFrame => RoundTrip.eotFrame
  | .canSequence => RoundTrip.canSequence

/-- Settles O57, from the round trip of each row. -/
theorem decodeOfEncodeIsTheInstruction : Obligations.DecodeOfEncodeIsTheInstruction := fun exp cks i =>
  decode_encode i exp cks

/-! ## The timeout operand -/

/-- Settles O1: the table of R90, read in both directions. -/
theorem timeoutOperandIsFixedByTheReadingState : Obligations.TimeoutOperandIsFixedByTheReadingState := by
  refine ⟨rfl, by decide, fun st h => ?_⟩
  cases st with
  | awaitStart | readBlknum | readInvblk | readPayload | readCksum | flushResync | flushDup | flushDesync => decide
  | idle | loopCheck | preSend | retryInc | sendCtrl | advance | reject | fail | sendCan | sendFinAck | done | failed =>
    exact absurd rfl h

/-! ## What the decoder gives fits its class -/

/-- The instruction is well-formed and its compared byte is in the class the registers give. -/
def Fits (exp cks : Byte) (i : Instr) : Prop := i.wf = true ∧ i.agrees exp cks = true

section

variable {exp cks : Byte} {i : Instr}

/-- R91. -/
theorem classifyAwait_fits (exp cks : Byte) (r : RdResult) : Fits exp cks (classifyAwait r) := by
  cases r with
  | timeout => exact ⟨rfl, rfl⟩
  | byte b =>
    simp only [classifyAwait]
    split
    · exact ⟨rfl, rfl⟩
    · next hsoh =>
      split
      · exact ⟨rfl, rfl⟩
      · next heot => exact ⟨by simpa [Instr.wf] using And.intro hsoh heot, rfl⟩

/-- R92. -/
theorem classifyBlknum_dup {b : Byte} (h : b = prevBlock exp) : classifyBlknum exp (.byte b) = .blknumDup b := if_pos h

theorem classifyBlknum_bad {b : Byte} (hdup : b ≠ prevBlock exp) (hok : b ≠ exp) :
    classifyBlknum exp (.byte b) = .blknumBad b := (if_neg hdup).trans (if_pos hok)

/-- The expected number is not its own predecessor, so the test for a duplicate lets it pass (R179). -/
theorem classifyBlknum_ok {b : Byte} (h : b = exp) : classifyBlknum exp (.byte b) = .blknumOk b :=
  (if_neg (h ▸ (prevBlock_ne exp).symm)).trans (if_neg (not_not.2 h))

theorem classifyBlknum_fits (exp cks : Byte) (r : RdResult) : Fits exp cks (classifyBlknum exp r) := by
  cases r with
  | timeout => exact ⟨rfl, rfl⟩
  | byte b =>
    by_cases hdup : b = prevBlock exp
    · rw [classifyBlknum_dup hdup]
      exact ⟨rfl, decide_eq_true hdup⟩
    · by_cases hok : b = exp
      · rw [classifyBlknum_ok hok]
        exact ⟨rfl, decide_eq_true hok⟩
      · rw [classifyBlknum_bad hdup hok]
        exact ⟨rfl, by simpa [Instr.agrees, hok] using hdup⟩

/-- R93. -/
theorem classifyInvblk_ok {b : Byte} (h : b = inverseBlock exp) : classifyInvblk exp (.byte b) = .invblkOk b := if_pos h

theorem classifyInvblk_bad {b : Byte} (h : b ≠ inverseBlock exp) : classifyInvblk exp (.byte b) = .invblkBad b := if_neg h

theorem classifyInvblk_fits (exp cks : Byte) (r : RdResult) : Fits exp cks (classifyInvblk exp r) := by
  cases r with
  | timeout => exact ⟨rfl, rfl⟩
  | byte b =>
    by_cases h : b = inverseBlock exp
    · rw [classifyInvblk_ok h]
      exact ⟨rfl, decide_eq_true h⟩
    · rw [classifyInvblk_bad h]
      exact ⟨rfl, decide_eq_true h⟩

/-- R94: every byte is data. -/
theorem classifyPayload_fits (exp cks : Byte) (r : RdResult) : Fits exp cks (classifyPayload r) := by
  cases r <;> exact ⟨rfl, rfl⟩

/-- R95. -/
theorem classifyCksum_fits (exp cks : Byte) (r : RdResult) : Fits exp cks (classifyCksum cks r) := by
  cases r with
  | timeout => exact ⟨rfl, rfl⟩
  | byte b =>
    simp only [classifyCksum]
    split <;> exact ⟨rfl, decide_eq_true ‹_›⟩

/-- A control state selects its one operation. -/
theorem decodeControl_ok {j : Instr} {e : OpEvent} (h : decodeControl j e = .ok i) : i = j := by
  cases e with
  | quiet => exact (ok_inj h).symm
  | start | timeout | byte => cases h

/-- A reading state selects the class of the result. -/
theorem decodeReading_ok {classify : RdResult → Instr} {e : OpEvent} (h : decodeReading classify e = .ok i) :
    ∃ r, i = classify r := by
  cases e with
  | timeout | byte => exact ⟨_, (ok_inj h).symm⟩
  | quiet | start => cases h

/-- A resting state selects START. -/
theorem decodeRest_ok {e : OpEvent} (h : decodeRest e = .ok i) : ∃ n, i = .start n := by
  cases e with
  | start n => exact ⟨n, (ok_inj h).symm⟩
  | quiet | timeout | byte => cases h

/-- R91 to R96: the operation a control state and an event select fits, START apart. -/
theorem decodeState_fits {st : St} {e : OpEvent} (h : decodeState exp cks e st = .ok i) (hstart : ∀ n, i ≠ .start n) :
    Fits exp cks i := by
  cases st with
  | idle | done | failed =>
    obtain ⟨n, rfl⟩ := decodeRest_ok h
    exact absurd rfl (hstart n)
  | loopCheck | preSend | retryInc | sendCtrl | advance | reject | fail | sendCan | sendFinAck =>
    cases decodeControl_ok h
    exact ⟨rfl, rfl⟩
  | flushResync | flushDup | flushDesync =>
    obtain ⟨r, rfl⟩ := decodeReading_ok h
    exact ⟨rfl, rfl⟩
  | awaitStart =>
    obtain ⟨r, rfl⟩ := decodeReading_ok h
    exact classifyAwait_fits exp cks r
  | readBlknum =>
    obtain ⟨r, rfl⟩ := decodeReading_ok h
    exact classifyBlknum_fits exp cks r
  | readInvblk =>
    obtain ⟨r, rfl⟩ := decodeReading_ok h
    exact classifyInvblk_fits exp cks r
  | readPayload =>
    obtain ⟨r, rfl⟩ := decodeReading_ok h
    exact classifyPayload_fits exp cks r
  | readCksum =>
    obtain ⟨r, rfl⟩ := decodeReading_ok h
    exact classifyCksum_fits exp cks r

/-- R90: a state's timeout operand is one of the three parameters. -/
theorem trdArm_fits {st : St} {w : Word32} (h : st.timeout = some w) : Fits exp cks (.trdArm w) := by
  refine ⟨?_, rfl⟩
  cases st with
  | awaitStart | readBlknum | readInvblk | readPayload | readCksum | flushResync | flushDup | flushDesync =>
    cases h
    decide
  | idle | loopCheck | preSend | retryInc | sendCtrl | advance | reject | fail | sendCan | sendFinAck | done | failed =>
    cases h

/-- R103: so does what a selection decodes to, whatever `tst` is. -/
theorem decodeOp_fits {w : OpWord} (h : decodeOp exp cks w = .ok i) (hstart : ∀ n, i ≠ .start n) : Fits exp cks i := by
  unfold decodeOp at h
  cases hst : St.ofCode w.st with
  | none => simp [hst] at h
  | some st =>
    simp only [hst] at h
    cases htst : Tst.ofCode w.tst with
    | off =>
      simp only [htst] at h
      exact decodeState_fits h hstart
    | arm =>
      simp only [htst] at h
      cases hw : st.timeout with
      | none => simp [hw] at h
      | some t =>
        simp only [hw] at h
        cases ok_inj h
        exact trdArm_fits hw
    | poll | chk =>
      simp only [htst] at h
      cases ok_inj h
      exact ⟨rfl, rfl⟩

/-- R97: a wire constant has no operand. -/
theorem decodeConst_fits {b : Byte} (h : decodeConst b = .ok i) : Fits exp cks i := by
  unfold decodeConst at h
  split_ifs at h <;> (cases ok_inj h; exact ⟨rfl, rfl⟩)

/-- A single byte behind the first `n` fixes the length of what stands before it. -/
theorem length_take_of_drop_singleton {α : Type} {n : Nat} {l : List α} {a : α} (h : l.drop n = [a]) :
    (l.take n).length = n := by
  have hlen : l.length - n = 1 := by rw [← List.length_drop, h, List.length_singleton]
  rw [List.length_take]
  omega

/-- R81: the decoder tests the length, the inverse and the checksum of a data frame. -/
theorem decodeDataFrame_ok {bytes : List Byte} (h : decodeDataFrame bytes = .ok i) :
    ∃ blk inv data cks, i = .dataFrame blk inv data cks ∧ frameWf blk inv data cks = true := by
  unfold decodeDataFrame at h
  split at h
  · next blk inv rest =>
    split at h
    · next c hdrop =>
      dsimp only at h
      split_ifs at h with hinv hsum
      refine ⟨blk, inv, rest.take Config.blockSize, c, (ok_inj h).symm, ?_⟩
      simp only [frameWf, length_take_of_drop_singleton hdrop, not_not.1 hinv, not_not.1 hsum, decide_true, Bool.and_self]
    · cases h
  · cases h

/-- R81, R82, R84. -/
theorem decodeFrame_fits {bytes : List Byte} (h : decodeFrame bytes = .ok i) : Fits exp cks i := by
  cases bytes with
  | nil => cases h
  | cons b rest =>
    simp only [decodeFrame] at h
    split_ifs at h
    · obtain ⟨blk, inv, data, c, rfl, hwf⟩ := decodeDataFrame_ok h
      exact ⟨hwf, rfl⟩
    all_goals (cases ok_inj h; exact ⟨rfl, rfl⟩)

end

/-- Settles O58, by the three forms of a code. -/
theorem decodedInstructionsFitTheirClass : Obligations.DecodedInstructionsFitTheirClass := by
  intro exp cks c i h hstart
  cases c with
  | op w => exact decodeOp_fits h hstart
  | const b => exact decodeConst_fits h
  | frame bytes => exact decodeFrame_fits h

end Sys2Proof.Proofs.Decoding
end

section
/-! PROOFS. The result of a timed read (30_encoding.md R91 to R96, R98): the operation each class selects in each reading
state, and that every result has one. -/

namespace Sys2Proof.Proofs.Outcomes

open Sys2Proof.Machine Sys2Proof.Proofs.Scope Sys2Proof.Proofs.Decoding

/-! ## The selection by the result -/

/-- No reading state is at rest. -/
theorem atRest_of_reading {st : St} (h : reading st = true) : atRest st = false := by
  cases st with
  | idle | done | failed => cases h
  | _ => rfl

theorem decodeReading_event (classify : RdResult → Instr) (r : RdResult) :
    decodeReading classify r.event = .ok (classify r) := by
  cases r <;> rfl

/-- A timed read is over and its result waits: the control state's classifier, if it has one, decides. -/
theorem fetch_result {s : State} {st : St} {r : RdResult} {classify : RdResult → Instr} (hst : s.st = st)
    (htst : s.tst = .off) (hr : s.result = some r) (hread : reading st = true)
    (hclass : decodeState s.expectedBlockNumber s.checksum r.event st = decodeReading classify r.event) :
    fetch s = .ok (classify r) := by
  subst hst
  rw [fetch_reading s r htst hr (atRest_of_reading hread), hclass, decodeReading_event]

/-- Settles O22. -/
theorem frameClassifier : Obligations.FrameClassifier := by
  refine ⟨fun s r hst htst hr => ?_, fun s => ⟨rfl, rfl, rfl, fun _ => rfl⟩⟩
  rw [fetch_result (classify := classifyAwait) hst htst hr rfl rfl]
  cases r <;> rfl

/-- The number of a duplicate by its value (R11). -/
theorem eq_prevBlock_iff (b exp : Byte) : b = prevBlock exp ↔ b.toNat = (exp.toNat + 255) % 256 := by
  rw [← toNat_prevBlock, BitVec.toNat_inj]

/-- Settles O23, from the three classes of `classifyBlknum`. -/
theorem blockNumberValidator : Obligations.BlockNumberValidator := by
  refine ⟨fun s r hst htst hr => ?_, fun s => ⟨rfl, fun _ => ⟨rfl, rfl, rfl⟩⟩⟩
  rw [fetch_result (classify := classifyBlknum s.expectedBlockNumber) hst htst hr rfl rfl]
  refine ⟨?_, ?_⟩
  · rintro rfl
    rfl
  · rintro b rfl
    simp only [← eq_prevBlock_iff, ne_eq]
    exact ⟨fun hdup => congrArg _ (classifyBlknum_dup hdup), fun hdup hok => congrArg _ (classifyBlknum_bad hdup hok),
      fun hok => congrArg _ (classifyBlknum_ok hok)⟩

/-- The inverse of the expected number by its value (R12). -/
theorem eq_inverseBlock_iff (b exp : Byte) : b = inverseBlock exp ↔ b.toNat = 255 - exp.toNat := by
  rw [← toNat_inverseBlock, BitVec.toNat_inj]

/-- Settles O24, from the two classes of `classifyInvblk`. -/
theorem inverseBlockNumberCheck : Obligations.InverseBlockNumberCheck := by
  refine ⟨fun s r hst htst hr => ?_, fun s => ⟨rfl, fun _ => ⟨rfl, rfl⟩⟩⟩
  rw [fetch_result (classify := classifyInvblk s.expectedBlockNumber) hst htst hr rfl rfl]
  refine ⟨?_, ?_⟩
  · rintro rfl
    rfl
  · rintro b rfl
    simp only [← eq_inverseBlock_iff, ne_eq]
    exact ⟨fun hok => congrArg _ (classifyInvblk_ok hok), fun hbad => congrArg _ (classifyInvblk_bad hbad)⟩

/-- Settles O27. -/
theorem checksumCheck : Obligations.ChecksumCheck := by
  refine ⟨fun s r hst htst hr => ?_, fun s => ⟨rfl, fun _ => ⟨rfl, rfl⟩⟩⟩
  rw [fetch_result (classify := classifyCksum s.checksum) hst htst hr rfl rfl]
  cases r <;> rfl

/-! ## Every result has an operation, and it runs -/

/-- Settles O43: each arm of `exec` answers a next state on each of its branches. -/
theorem everyInstructionRuns : Obligations.EveryInstructionRuns := by
  intro i s
  cases i with
  | trdPoll =>
    simp only [exec, execTrdPoll]
    split <;> exact ⟨_, rfl⟩
  | trdChk | start | loopchk | presend | retryinc =>
    simp only [exec, execTrdChk, execStart, execLoopchk, execPresend, execRetryinc]
    split <;> exact ⟨_, rfl⟩
  | flushResync r | flushDup r | flushDesync r => cases r <;> exact ⟨_, rfl⟩
  | _ => exact ⟨_, rfl⟩

/-- R98: every reading state has a class for every result. -/
theorem fetch_result_ok {s : State} {r : RdResult} (hread : reading s.st = true) (htst : s.tst = .off)
    (hr : s.result = some r) : ∃ i, fetch s = .ok i := by
  cases hst : s.st with
  | flushResync | flushDup | flushDesync | awaitStart | readBlknum | readInvblk | readPayload | readCksum =>
    exact ⟨_, fetch_result hst htst hr rfl rfl⟩
  | idle | loopCheck | preSend | retryInc | sendCtrl | advance | reject | fail | sendCan | sendFinAck | done | failed =>
    rw [hst] at hread
    cases hread

/-- R45: the operation a result selects consumes it. -/
theorem exec_consumes {s t : State} {i : Instr} {r : RdResult} (hread : reading s.st = true) (htst : s.tst = .off)
    (hr : s.result = some r) (hs : Selects s i) (he : exec i s = .next t) : t.result = none := by
  cases i with
  | flushResync r | flushDup r | flushDesync r => cases r <;> (cases next_inj he; rfl)
  | awaitTo | awaitSoh | awaitEot | awaitOther | blknumTo | blknumDup | blknumBad | blknumOk | invblkOk | invblkBad
  | invblkTo | payloadByte | payloadTo | cksumOk | cksumBad | cksumTo =>
    cases next_inj he
    rfl
  | loopchk | presend | retryinc | sendctl | reject | fail | sendcan | finack | advance =>
    obtain ⟨-, -, hnone⟩ := hs
    simp [hr] at hnone
  | trdArm | trdPoll | trdChk => simp [Selects, htst] at hs
  | start =>
    obtain ⟨-, hrest, -⟩ := hs
    simp [atRest_of_reading hread] at hrest
  | soh | eot | ack | nak | can | dataFrame | eotFrame | canSequence => cases hs

/-- A result of a timed read does not select START. -/
theorem fetch_ne_start {s : State} {i : Instr} (hread : reading s.st = true) (hi : fetch s = .ok i) (n : Nat) :
    i ≠ .start n := by
  rintro rfl
  obtain ⟨-, hrest, -⟩ := fetch_selects s _ hi
  simp [atRest_of_reading hread] at hrest

/-- Settles O42. -/
theorem everyOutcomeHasAnOperation : Obligations.EveryOutcomeHasAnOperation := by
  intro s r hread htst hr
  obtain ⟨i, hi⟩ := fetch_result_ok hread htst hr
  obtain ⟨t, he⟩ := everyInstructionRuns i s
  obtain ⟨hwf, hagrees⟩ := decodedInstructionsFitTheirClass _ _ _ i hi (fetch_ne_start hread hi)
  exact ⟨i, t, hi, hwf, hagrees, he, exec_consumes hread htst hr (fetch_selects s i hi) he⟩

end Sys2Proof.Proofs.Outcomes
end

section
/-! PROOFS. That the machine goes on (30_encoding.md R98, R103): a block cycle runs what its selection decodes to, and in
a state with the invariant the selection always decodes, or the block rests. -/

namespace Sys2Proof.Proofs.Progress

open Sys2Proof.Machine Sys2Proof.Proofs.Invariant Sys2Proof.Proofs.Spaces Sys2Proof.Proofs.Outcomes

/-- R110: `tst` in the state in which a cycle selects its operation. -/
theorem cycleState_eq (inp : Inputs) (s : State) :
    cycleState inp s = { s with
      inp := inp, txValid := false, rxPop := false, bufWe := false,
      tst := if reading s.st = true ∧ s.tst = .off ∧ s.result = none then .arm else s.tst } := by
  split
  · next hdue =>
    obtain ⟨hread, htst, hr⟩ := hdue
    exact cycleState_arms s inp hread htst hr
  · next hdue =>
    refine cycleState_idle s inp ?_
    cases hread : reading s.st with
    | false => exact .inl rfl
    | true => exact .inr (by tauto)

/-- R103: a block cycle runs the operation that is selected. -/
theorem blockCycle_ok {inp : Inputs} {s : State} {i : Instr} (hrst : inp.rst = false)
    (hi : fetch (cycleState inp s) = .ok i) : blockCycle inp s = exec i (cycleState inp s) := by
  rw [blockCycle_runs inp s hrst, hi]

/-- Settles O32: the move is the cycle, and the state written out is its `cycleState`. -/
theorem blockCycleRunsTheSelectedOperation : Obligations.BlockCycleRunsTheSelectedOperation := by
  intro s inp es i hs hrst u hi
  have hu : cycleState inp { s with script := es } = u := cycleState_eq inp _
  rw [step_event s _ es hs, ← hu]
  exact blockCycle_ok hrst (hu ▸ hi)

/-! ## From a state with the invariant nothing stops -/

/-- In a cycle a reading state with no timed read in progress has the result of one waiting. -/
theorem cycleState_result {inp : Inputs} {s : State} (hread : reading (cycleState inp s).st = true)
    (htst : (cycleState inp s).tst = .off) : ∃ r, (cycleState inp s).result = some r := by
  rw [cycleState_eq] at hread htst ⊢
  refine Option.ne_none_iff_exists'.1 fun hnone => ?_
  dsimp only at hread htst hnone
  by_cases hoff : s.tst = .off
  · simp [hread, hoff, hnone] at htst
  · simp [hoff] at htst

/-- R22, R111. -/
theorem fetch_arm {s : State} {w : Word32} (htst : s.tst = .arm) (hw : s.st.timeout = some w) :
    fetch s = .ok (.trdArm w) := by
  unfold fetch fetchWord
  rw [htst, decode_arm _ _ _ _ w hw]

/-- R112. -/
theorem fetch_poll {s : State} (htst : s.tst = .poll) : fetch s = .ok .trdPoll := by
  unfold fetch fetchWord
  rw [htst, decode_poll]

/-- R113. -/
theorem fetch_chk {s : State} (htst : s.tst = .chk) : fetch s = .ok .trdChk := by
  unfold fetch fetchWord
  rw [htst, decode_chk]

/-- R36, R144: at rest the host's START or nothing. -/
theorem fetch_atRest {s : State} (htst : s.tst = .off) (hrest : atRest s.st = true) :
    fetch s = if s.inp.start then .ok (.start s.inp.capacityIn) else .error .atRest := by
  have hstate : ∀ e, decodeState s.expectedBlockNumber s.checksum e s.st = decodeRest e := fun e => by
    cases hst : s.st with
    | idle | done | failed => rfl
    | _ => simp [hst, atRest] at hrest
  rw [fetch_off s htst, hstate, eventOf, if_pos hrest]
  split <;> rfl

/-- R103: a state that neither rests nor reads has its one operation. -/
theorem fetch_control_ok {s : State} (htst : s.tst = .off) (hr : s.result = none) (hrest : atRest s.st = false)
    (hread : reading s.st = false) : ∃ i, fetch s = .ok i := by
  rw [fetch_control s htst hr hrest]
  cases hst : s.st with
  | loopCheck | preSend | retryInc | sendCtrl | advance | reject | fail | sendCan | sendFinAck => exact ⟨_, rfl⟩
  | idle | done | failed => simp [hst, atRest] at hrest
  | flushResync | flushDup | flushDesync | awaitStart | readBlknum | readInvblk | readPayload | readCksum =>
    simp [hst, reading, St.timeout] at hread

/-- R148: registers with the invariant, and the result of the timed read where one is due, select an operation or rest. -/
theorem fetch_of_regsOk {s : State} (h : RegsOk s)
    (hdue : reading s.st = true → s.tst = .off → ∃ r, s.result = some r) :
    (∃ i, fetch s = .ok i) ∨ fetch s = .error .atRest := by
  cases htst : s.tst with
  | arm =>
    obtain ⟨w, hw⟩ := reading_timeout s.st (h.read.tst_reading (by simp [htst]))
    exact .inl ⟨_, fetch_arm htst hw⟩
  | poll => exact .inl ⟨_, fetch_poll htst⟩
  | chk => exact .inl ⟨_, fetch_chk htst⟩
  | off =>
    cases hread : reading s.st with
    | true =>
      obtain ⟨r, hr⟩ := hdue hread htst
      exact .inl (fetch_result_ok hread htst hr)
    | false =>
      cases hrest : atRest s.st with
      | true =>
        rw [fetch_atRest htst hrest]
        split
        · exact .inl ⟨_, rfl⟩
        · exact .inr rfl
      | false =>
        have hnone : s.result = none := by
          by_contra hwaits
          simp [(h.read.result_reading hwaits).1] at hread
        exact .inl (fetch_control_ok htst hnone hrest hread)

/-- R148, R230: a block cycle answers a next state. -/
theorem blockCycle_next {s : State} (h : s.Inv) (inp : Inputs) : ∃ t, blockCycle inp s = .next t := by
  cases hrst : inp.rst with
  | true => exact ⟨_, by simp only [blockCycle, hrst, if_true]; rfl⟩
  | false =>
    obtain ⟨hregs, -, -⟩ := (inv_iff _).1 (cycleState_inv h inp)
    obtain ⟨i, hi⟩ | hrest := fetch_of_regsOk hregs cycleState_result
    · rw [blockCycle_ok hrst hi]
      exact everyInstructionRuns i _
    · exact ⟨_, by rw [blockCycle_runs inp s hrst, hrest]⟩

/-- R204: a received wire item passes whenever it comes, a written one while the channel is free. -/
theorem wire_next {s : State} {w : WireItem} (h : writtenItem w = false ∨ busy s = false) :
    ∃ t, stepEvent (.wire w) s = .next t := by
  have hfree : ¬ (writtenItem w && busy s) = true := by simpa [imp_iff_not_or] using h
  rw [stepEvent, if_neg hfree]
  exact everyInstructionRuns _ s

/-- U6. -/
theorem wire_refused {s : State} {w : WireItem} (hw : writtenItem w = true) (hbusy : busy s = true) :
    stepEvent (.wire w) s = .refused .exclusivityBroken := by
  simp [stepEvent, hw, hbusy]

/-- Settles O41: the move is made in a state that differs in the script and the counter of free values only; a cycle
selects an operation or rests, and every operation runs. -/
theorem invariantStatesNeverStop : Obligations.InvariantStatesNeverStop := by
  intro s h
  obtain ⟨es, n, hu⟩ := nextEvent_state s
  simp only [step, hu]
  cases (nextEvent s).1 with
  | cycle inp => exact blockCycle_next (s := { s with script := es, draws := n }) { h with } inp
  | arrive | lose => exact ⟨_, rfl⟩
  | wire w => exact ⟨fun hfree => wire_next hfree, fun hw hbusy => wire_refused hw hbusy⟩
  | hostTake | hostRead | hostWrite | hostStore =>
    exact ⟨fun hrest => ⟨_, whileAtRest_rest hrest _⟩, fun hbusy => whileAtRest_busy hbusy _⟩

end Sys2Proof.Proofs.Progress
end

section
/-! PROOFS. The timed read (40_timed_read.md R110 to R122): its three operations, the block cycles that run them, and what
of the channel and the clock reaches the operation that its result selects. -/

namespace Sys2Proof.Proofs.TimedRead

open Sys2Proof.Machine Sys2Proof.Proofs.Scope Sys2Proof.Proofs.Spaces Sys2Proof.Proofs.Outcomes Sys2Proof.Proofs.Progress

/-! ## The three operations -/

/-- Settles O2. -/
theorem trdArmReadsTheClockAndFormsTheDeadline : Obligations.TrdArmReadsTheClockAndFormsTheDeadline :=
  ⟨fun _ _ => fetch_arm, fun s w => ⟨exec_trdArm w s, rfl⟩⟩

/-- R112: the poll's environment operation carries the port's answer. -/
theorem envOps_trdPoll (s : State) : envOps .trdPoll s = [.chanPoll (rxData s)] := rfl

/-- Settles O3. -/
theorem trdPollTakesTheOldestByteOrNothing : Obligations.TrdPollTakesTheOldestByteOrNothing := by
  refine ⟨fun _ => fetch_poll, fun s b rest hrx => ⟨exec_trdPoll_byte hrx, ?_⟩,
    fun s hrx => ⟨exec_trdPoll_empty hrx, ?_⟩⟩
  · rw [envOps_trdPoll, rxData, hrx, List.head?_cons]
  · rw [envOps_trdPoll, rxData, hrx, List.head?_nil]

/-- R113, with the test as a signed comparison. -/
theorem exec_trdChk_signed (s : State) :
    exec .trdChk s = .next (if 0 ≤ (s.inp.now - s.deadline).toInt then { s with result := some .timeout, tst := .off }
      else { s with tst := .poll }) := by
  simp only [exec_trdChk, expired_iff]

/-- R113, the deadline reached. -/
theorem exec_trdChk_due {s : State} (h : 0 ≤ (s.inp.now - s.deadline).toInt) :
    exec .trdChk s = .next { s with result := some .timeout, tst := .off } := by
  rw [exec_trdChk_signed, if_pos h]

/-- R113, the deadline not reached. -/
theorem exec_trdChk_early {s : State} (h : ¬ 0 ≤ (s.inp.now - s.deadline).toInt) :
    exec .trdChk s = .next { s with tst := .poll } := by
  rw [exec_trdChk_signed, if_neg h]

/-- R13: the sign is bit 31; `expired_iff` at deadline 0. -/
theorem toInt_nonneg_iff_bit31 (d : Word32) : 0 ≤ d.toInt ↔ d.getLsbD 31 = false := by
  simpa [expired] using (expired_iff d 0#32).symm

/-- Settles O4. -/
theorem trdChkTestsTheSignedDifference : Obligations.TrdChkTestsTheSignedDifference :=
  ⟨fun _ => fetch_chk, exec_trdChk_signed, fun _ => rfl, toInt_nonneg_iff_bit31⟩

/-! ## Arm, then check -/

/-- R119: a check `e` microseconds after a timed read of `w` was armed reports the timeout exactly when `e - w`, modulo
`2^32`, is in the lower half of the clock range. -/
theorem exec_trdChk_armed (s : State) (w t0 e : Word32) :
    ∃ a, exec (.trdArm w) (s.atTime t0) = .next a ∧
      exec .trdChk (a.atTime (t0 + e)) =
        .next (if (e - w).toNat < 2 ^ 31 then { a.atTime (t0 + e) with result := some .timeout, tst := .off }
          else { a.atTime (t0 + e) with tst := .poll }) := by
  refine ⟨_, exec_trdArm w (s.atTime t0), ?_⟩
  rw [exec_trdChk]
  simp only [State.atTime, expired_deadlineOf_iff]

/-- Settles O6: with `w` above `2^31` the difference `0 - w` is in the lower half already, and with `e` at least `2^31`
past `w` the difference `e - w` is no longer. -/
theorem timeoutsBeyondHalfTheClockRangeAreMisread : Obligations.TimeoutsBeyondHalfTheClockRangeAreMisread := by
  refine ⟨fun s w t0 hw => ?_, fun s w t0 e he => ?_⟩
  · obtain ⟨a, harm, hchk⟩ := exec_trdChk_armed s w t0 0#32
    have lower : (0#32 - w).toNat < 2 ^ 31 := by bv_omega
    rw [if_pos lower, BitVec.add_zero] at hchk
    exact ⟨a, harm, hchk⟩
  · obtain ⟨a, harm, hchk⟩ := exec_trdChk_armed s w t0 e
    have upper : ¬ (e - w).toNat < 2 ^ 31 := by bv_omega
    rw [if_neg upper] at hchk
    exact ⟨a, harm, hchk⟩

/-! ## The block cycles of a timed read -/

/-- A block cycle without `rst` that stands in the script runs the operation selected. -/
theorem step_cycle {s : State} {inp : Inputs} {es : List Event} {i : Instr} (hs : s.script = .cycle inp :: es)
    (hrst : inp.rst = false) (hi : fetch (cycleState inp { s with script := es }) = .ok i) :
    step s = exec i (cycleState inp { s with script := es }) :=
  (step_event s _ es hs).trans (blockCycle_ok hrst hi)

/-- Settles O7: the cycle begins the read and so selects `TRD.ARM`. -/
theorem readingStateBeginsItsTimedRead : Obligations.ReadingStateBeginsItsTimedRead := by
  intro s inp es w hw htst hr hs hrst
  have hread : reading s.st = true := by rw [reading, hw, Option.isSome_some]
  have hcycle := cycleState_arms { s with script := es } inp hread htst hr
  have hfetch : fetch (cycleState inp { s with script := es }) = .ok (.trdArm w) := by
    rw [hcycle]
    exact fetch_arm rfl hw
  rw [step_cycle hs hrst hfetch, hcycle]
  rfl

/-- A block cycle that begins no timed read: one is in progress already, or its result waits. -/
theorem step_begun {s : State} {inp : Inputs} {es : List Event} {i : Instr} (hbegun : s.tst ≠ .off ∨ s.result ≠ none)
    (hs : s.script = .cycle inp :: es) (hrst : inp.rst = false)
    (hi : fetch (beginCycle inp { s with script := es }) = .ok i) :
    step s = exec i (beginCycle inp { s with script := es }) := by
  have hcycle : cycleState inp { s with script := es } = _ := cycleState_idle _ inp (.inr hbegun)
  rw [step_cycle hs hrst (by rw [hcycle, hi]), hcycle]

/-- R112: the block cycle of a poll. -/
theorem step_poll {s : State} {inp : Inputs} {es : List Event} (htst : s.tst = .poll) (hs : s.script = .cycle inp :: es)
    (hrst : inp.rst = false) : step s = exec .trdPoll (beginCycle inp { s with script := es }) :=
  step_begun (.inl (by simp [htst])) hs hrst (fetch_poll htst)

/-- R113: the block cycle of a check. -/
theorem step_chk {s : State} {inp : Inputs} {es : List Event} (htst : s.tst = .chk) (hs : s.script = .cycle inp :: es)
    (hrst : inp.rst = false) : step s = exec .trdChk (beginCycle inp { s with script := es }) :=
  step_begun (.inl (by simp [htst])) hs hrst (fetch_chk htst)

/-- R114: arm and poll with a byte waiting, at the head of a run. -/
theorem run_arm_poll_byte (n : Nat) {s : State} {w : Word32} {b : Byte} {rest : List Byte} {i1 i2 : Inputs}
    {es : List Event} (hw : s.st.timeout = some w) (htst : s.tst = .off) (hr : s.result = none) (hrx : s.rx = b :: rest)
    (hs : s.script = .cycle i1 :: .cycle i2 :: es) (h1 : i1.rst = false) (h2 : i2.rst = false) :
    run (n + 2) s = run n { s with
      deadline := i1.now + w, rx := rest, txValid := false, rxPop := true, bufWe := false, result := some (.byte b),
      tst := .off, inp := i2, script := es } := by
  rw [run_step (n + 1) s _ (readingStateBeginsItsTimedRead s i1 _ w hw htst hr hs h1)]
  refine run_step n _ _ ?_
  rw [step_poll rfl rfl h2]
  exact exec_trdPoll_byte hrx

/-- R110: arm and poll on an empty channel, at the head of a run. -/
theorem run_arm_poll_empty (n : Nat) {s : State} {w : Word32} {i1 i2 : Inputs} {es : List Event}
    (hw : s.st.timeout = some w) (htst : s.tst = .off) (hr : s.result = none) (hrx : s.rx = [])
    (hs : s.script = .cycle i1 :: .cycle i2 :: es) (h1 : i1.rst = false) (h2 : i2.rst = false) :
    run (n + 2) s = run n { s with
      deadline := i1.now + w, txValid := false, rxPop := false, bufWe := false, tst := .chk, inp := i2, script := es } := by
  rw [run_step (n + 1) s _ (readingStateBeginsItsTimedRead s i1 _ w hw htst hr hs h1)]
  refine run_step n _ _ ?_
  rw [step_poll rfl rfl h2]
  exact exec_trdPoll_empty hrx

/-- Settles O8: no clock value is a hypothesis of the two cycles. -/
theorem waitingByteWinsOverTheDeadline : Obligations.WaitingByteWinsOverTheDeadline :=
  fun _ _ _ _ _ _ _ hw htst hr hrx hs h1 h2 => run_arm_poll_byte 0 hw htst hr hrx hs h1 h2

/-- Settles O9: the poll finds nothing, and the check tests the deadline that the arm has set. -/
theorem quietTimedReadPollsOnceThenChecks : Obligations.QuietTimedReadPollsOnceThenChecks := by
  intro s w i1 i2 i3 es hw htst hr hrx hs h1 h2 h3
  rw [run_arm_poll_empty 1 hw htst hr hrx hs h1 h2]
  by_cases hdue : 0 ≤ (i3.now - (i1.now + w)).toInt
  · rw [if_pos hdue, if_pos hdue]
    exact run_step 0 _ _ ((step_chk rfl rfl h3).trans (exec_trdChk_due hdue))
  · rw [if_neg hdue, if_neg hdue, ← hr]
    exact run_step 0 _ _ ((step_chk rfl rfl h3).trans (exec_trdChk_early hdue))

/-! ## What reaches the other operations -/

/-- The state with another clock value and another receive queue. -/
def elsewhere (now : Word32) (rx : List Byte) (s : State) : State := { s.atTime now with rx := rx }

/-- A write sees of its surroundings `tx_ready` only. -/
theorem chanWrite_elsewhere (now : Word32) (rx : List Byte) (b : Byte) {after : State → State} (s : State)
    (hafter : ∀ u, after (elsewhere now rx u) = elsewhere now rx (after u)) :
    chanWrite b after (elsewhere now rx s) = elsewhere now rx (chanWrite b after s) := by
  obtain hready | hready := Bool.eq_false_or_eq_true s.inp.txReady
  · rw [chanWrite_ready b after s hready, chanWrite_ready b after (elsewhere now rx s) hready, ← hafter]
    rfl
  · rw [chanWrite_waits b after s hready, chanWrite_waits b after (elsewhere now rx s) hready]
    rfl

/-- Settles O53: the tests of an operation outside the timed read are on registers and `tx_ready`. -/
theorem onlyTimedReadsSeeChannelAndClock : Obligations.OnlyTimedReadsSeeChannelAndClock := by
  intro i s t rx now hwire harm hpoll hchk he
  change exec i (elsewhere now rx s) = .next (elsewhere now rx t)
  cases i with
  | trdArm w => exact absurd rfl (harm w)
  | trdPoll => exact absurd rfl hpoll
  | trdChk => exact absurd rfl hchk
  | sendctl | sendcan | finack =>
    cases next_inj he
    exact congrArg Host.Outcome.next (chanWrite_elsewhere now rx _ s fun _ => rfl)
  | start | loopchk | presend | retryinc =>
    simp only [exec, execStart, execLoopchk, execPresend, execRetryinc] at he
    split at he <;> cases next_inj he
    · exact if_pos ‹_›
    · exact if_neg ‹_›
  | flushResync r | flushDup r | flushDesync r => cases r <;> (cases next_inj he; rfl)
  | reject | fail | awaitTo | awaitSoh | awaitEot | awaitOther | blknumTo | blknumDup | blknumBad | blknumOk | invblkOk
  | invblkBad | invblkTo | payloadByte | payloadTo | cksumOk | cksumBad | cksumTo | advance => cases next_inj he; rfl
  | soh | eot | ack | nak | can | dataFrame | eotFrame | canSequence => cases hwire

/-! ## The big step -/

/-- `s` with its input ports, `tx_valid`, the two pulses, receive queue, script and deadline as in `v`. -/
def amid (v s : State) : State :=
  { s with
    deadline := v.deadline, txValid := v.txValid, rxPop := v.rxPop, bufWe := v.bufWe, rx := v.rx, inp := v.inp,
    script := v.script }

/-- In a reading state the surroundings do not select the operation: `start` is not looked at (R145). -/
theorem fetch_amid (v : State) {s : State} (hread : reading s.st = true) : fetch (amid v s) = fetch s := by
  simp [fetch, fetchWord, eventOf, amid, atRest_of_reading hread]

/-- R122: an operation that a result selects does the same in other surroundings; only the pulse of a store can hide what
`buf_we` was. -/
theorem exec_amid {s t : State} {i : Instr} (v : State) (hread : reading s.st = true) (htst : s.tst = .off)
    (hs : Selects s i) (he : exec i s = .next t) : ∃ we, exec i (amid v s) = .next { amid v t with bufWe := we } := by
  cases i with
  | payloadByte => cases next_inj he; exact ⟨true, rfl⟩
  | flushResync r | flushDup r | flushDesync r => cases r <;> (cases next_inj he; exact ⟨v.bufWe, rfl⟩)
  | awaitTo | awaitSoh | awaitEot | awaitOther | blknumTo | blknumDup | blknumBad | blknumOk | invblkOk | invblkBad
  | invblkTo | payloadTo | cksumOk | cksumBad | cksumTo => cases next_inj he; exact ⟨v.bufWe, rfl⟩
  | trdArm | trdPoll | trdChk => simp [Selects, htst] at hs
  | loopchk | presend | retryinc | sendctl | reject | fail | sendcan | finack | advance =>
    obtain ⟨-, hst, -⟩ := hs
    rw [hst] at hread
    cases hread
  | start =>
    obtain ⟨-, hrest, -⟩ := hs
    simp [atRest_of_reading hread] at hrest
  | soh | eot | ack | nak | can | dataFrame | eotFrame | canSequence => cases hs

/-- R122: the state of a big step in a reading state. -/
theorem bigState_reading (r : RdResult) {s : State} (hread : reading s.st = true) :
    bigState r s = { s with
      inp := { s.inp with rst := false, start := false, txReady := true }, tst := .off, result := some r } :=
  if_pos hread

/-- A big step is the operation selected in its state, with some trace. -/
theorem bigStep_ok {r : RdResult} {s t : State} {i : Instr} (hi : fetch (bigState r s) = .ok i)
    (he : exec i (bigState r s) = .next t) : ∃ tr, bigStep r s = some (i, t, tr) :=
  ⟨_, by simp only [bigStep, hi, he]; rfl⟩

/-- Settles O55: in the third cycle the block is in the state of the big step amid other surroundings, so it selects the
same operation and does the same. -/
theorem bigStepWithAByteIsThreeCycles : Obligations.BigStepWithAByteIsThreeCycles := by
  intro s b rest i1 i2 i3 es hread htst hr hrx hs h1 h2 h3
  obtain ⟨w, hw⟩ := reading_timeout s.st hread
  rw [run_arm_poll_byte 1 hw htst hr hrx hs h1 h2]
  set v : State := { s with
    deadline := i1.now + w, rx := rest, txValid := false, rxPop := true, bufWe := false, result := some (.byte b),
    tst := .off, inp := i2, script := .cycle i3 :: es }
  set c : State := beginCycle i3 { v with script := es }
  have hbig := bigState_reading (.byte b) hread
  have hc : amid c (bigState (.byte b) s) = c := by rw [hbig]; rfl
  have hread' : reading (bigState (.byte b) s).st = true := by rw [hbig]; exact hread
  have htst' : (bigState (.byte b) s).tst = .off := by rw [hbig]
  have hr' : (bigState (.byte b) s).result = some (.byte b) := by rw [hbig]
  obtain ⟨i, hi⟩ := fetch_result_ok hread' htst' hr'
  obtain ⟨u, hu⟩ := everyInstructionRuns i (bigState (.byte b) s)
  obtain ⟨tr, htr⟩ := bigStep_ok hi hu
  obtain ⟨we, ht⟩ := exec_amid c hread' htst' (fetch_selects _ i hi) hu
  have hfetch : fetch c = .ok i := by rw [← hc, fetch_amid c hread', hi]
  have hstep : step v = exec i c := step_begun (.inr (by simp [v])) rfl h3 hfetch
  rw [← hc, ht] at hstep
  exact ⟨i, u, tr, _, htr, run_step 0 v _ hstep, rfl, rfl, rfl, rfl, rfl, rfl, rfl, rfl, rfl, rfl, rfl, rfl, rfl, rfl, rfl,
    rfl⟩

end Sys2Proof.Proofs.TimedRead
end

section
/-! PROOFS. Session control (41_session_control.md R130 to R148): its operations, START and rest, the transition table,
and how the kinds of failure are told apart. -/

namespace Sys2Proof.Proofs.Session

open Sys2Proof.Machine Sys2Proof.Proofs.Effects Sys2Proof.Proofs.Invariant Sys2Proof.Proofs.Registers
  Sys2Proof.Proofs.Spaces Sys2Proof.Proofs.Outcomes Sys2Proof.Proofs.Progress

/-! ## While busy: the ports `start` and `capacity_in` -/

/-- The input ports with other values on `start` and `capacity_in`. -/
def otherStart (x : Bool) (c : Nat) (inp : Inputs) : Inputs := { inp with start := x, capacityIn := c }

/-- The state with other input ports. -/
def withInputs (inp : Inputs) (s : State) : State := { s with inp := inp }

/-- R36, R38: of the input ports an operation sees `tx_ready` and `now` only; START takes its operand, not the port. -/
theorem exec_otherStart (x : Bool) (c : Nat) {i : Instr} {s t : State} (he : exec i s = .next t) :
    exec i (withInputs (otherStart x c s.inp) s) = .next (withInputs (otherStart x c s.inp) t) := by
  cases i with
  | trdPoll =>
    cases hrx : s.rx with
    | nil =>
      rw [exec_trdPoll_empty hrx] at he
      cases next_inj he
      exact exec_trdPoll_empty (s := withInputs _ s) hrx
    | cons b rest =>
      rw [exec_trdPoll_byte hrx] at he
      cases next_inj he
      exact exec_trdPoll_byte (s := withInputs _ s) hrx
  | trdChk | start | loopchk | presend | retryinc =>
    simp only [exec, execTrdChk, execStart, execLoopchk, execPresend, execRetryinc] at he
    split at he <;> cases next_inj he
    · exact if_pos ‹_›
    · exact if_neg ‹_›
  | sendctl | sendcan | finack =>
    simp only [exec, execSendctl, execSendcan, execFinack, chanWrite] at he
    split at he <;> cases next_inj he
    · exact congrArg Host.Outcome.next (if_pos ‹_›)
    · exact congrArg Host.Outcome.next (if_neg ‹_›)
  | flushResync r | flushDup r | flushDesync r => cases r <;> (cases next_inj he; rfl)
  | trdArm | reject | fail | awaitTo | awaitSoh | awaitEot | awaitOther | blknumTo | blknumDup | blknumBad | blknumOk
  | invblkOk | invblkBad | invblkTo | payloadByte | payloadTo | cksumOk | cksumBad | cksumTo | advance | soh | eot | ack
  | nak | can | dataFrame | eotFrame | canSequence => cases next_inj he; rfl

/-- R145: while the block does not rest, the input ports select nothing. -/
theorem fetch_withInputs (inp : Inputs) {s : State} (h : atRest s.st = false) : fetch (withInputs inp s) = fetch s := by
  simp [fetch, fetchWord, eventOf, withInputs, h]

theorem cycleState_withInputs (inp inp' : Inputs) (s : State) :
    cycleState inp' s = withInputs inp' (cycleState inp s) := by
  rw [cycleState_eq, cycleState_eq]
  rfl

/-- R145, one block cycle. -/
theorem blockCycle_otherStart (x : Bool) (c : Nat) {inp : Inputs} {s t : State} (hbusy : busy s = true)
    (h : blockCycle inp s = .next t) :
    blockCycle (otherStart x c inp) s = .next (withInputs (otherStart x c inp) t) := by
  cases hrst : inp.rst with
  | true =>
    simp only [blockCycle, hrst, if_true] at h
    cases next_inj h
    exact if_pos hrst
  | false =>
    have hrest : atRest (cycleState inp s).st = false := by
      simpa [hbusy] using (atRest_iff_not_busy s).not
    have hinp : (cycleState inp s).inp = inp := cycleState_inp inp s
    rw [blockCycle_runs inp s hrst] at h
    rw [blockCycle_runs (otherStart x c inp) s hrst, cycleState_withInputs inp, fetch_withInputs _ hrest]
    rcases hf : fetch (cycleState inp s) with e | i
    · rw [hf] at h
      cases e with
      | atRest => cases next_inj h; rfl
      | _ => cases h
    · rw [hf] at h
      simpa only [hinp] using exec_otherStart x c h

/-- Settles O13: the move is the cycle, and the state in which it is made is as busy. -/
theorem startWhileBusyIsIgnored : Obligations.StartWhileBusyIsIgnored := by
  intro s inp es x c hbusy t hstep
  rw [step_event _ _ es rfl] at hstep ⊢
  exact blockCycle_otherStart x c (s := { s with script := es }) hbusy hstep

/-! ## The transition table -/

/-- R148: a state in which the block waits or rests is its own successor. -/
theorem mem_successors_self {st : St} (h : reading st = true ∨ atRest st = true) : st ∈ successors st := by
  revert h
  cases st <;> decide

/-- R130, R148. -/
theorem loopCheck_mem_successors {st : St} (h : atRest st = true) : St.loopCheck ∈ successors st := by
  revert h
  cases st <;> decide

/-- A write leads to where it goes once accepted, or waits. -/
theorem chanWrite_st {b : Byte} {after : State → State} {s : State} {l : List St} (hself : s.st ∈ l)
    (hafter : ∀ u, (after u).st ∈ l) : (chanWrite b after s).st ∈ l := by
  unfold chanWrite
  split
  · exact hafter _
  · exact hself

/-- R148: every operation the block selects follows an arrow of the table. -/
theorem exec_successors {s t : State} {i : Instr} (h : ReadOk s.st s.tst s.result) (hs : Selects s i)
    (he : exec i s = .next t) : t.st ∈ successors s.st := by
  cases i with
  | trdArm w =>
    obtain ⟨htst, -⟩ := hs
    cases next_inj he
    exact mem_successors_self (.inl (h.tst_reading (by simp [htst])))
  | trdPoll =>
    have hself := mem_successors_self (.inl (h.tst_reading (by simp [show s.tst = .poll from hs])))
    obtain rfl | ⟨b, rest, rfl⟩ := exec_trdPoll he <;> exact hself
  | trdChk =>
    have hself := mem_successors_self (.inl (h.tst_reading (by simp [show s.tst = .chk from hs])))
    rw [Scope.exec_trdChk] at he
    cases next_inj he
    split <;> exact hself
  | start c =>
    obtain ⟨-, hrest, -⟩ := hs
    rw [exec_start ((atRest_iff_not_busy s).1 hrest)] at he
    cases next_inj he
    exact loopCheck_mem_successors hrest
  | loopchk | presend | retryinc =>
    obtain ⟨-, hst, -⟩ := hs
    simp only [exec, execLoopchk, execPresend, execRetryinc] at he
    split at he <;> (cases next_inj he; simp [hst, successors, transient])
  | flushResync r | flushDup r | flushDesync r =>
    obtain ⟨-, hst, -⟩ := hs
    cases r <;> (cases next_inj he; simp [hst, successors, transient])
  | sendctl | finack =>
    obtain ⟨-, hst, -⟩ := hs
    cases next_inj he
    rw [hst]
    exact chanWrite_st (by rw [hst]; decide) fun _ => by simp [successors]
  | sendcan =>
    obtain ⟨-, hst, -⟩ := hs
    cases next_inj he
    rw [hst]
    exact chanWrite_st (by rw [hst]; decide) fun _ => by simp only [goto_st]; split <;> decide
  | payloadByte b =>
    obtain ⟨-, hst, -⟩ := hs
    cases next_inj he
    rw [hst]
    simp only [goto_st]
    split <;> decide
  | reject | fail | awaitTo | awaitSoh | awaitEot | awaitOther | blknumTo | blknumDup | blknumBad | blknumOk
  | invblkOk | invblkBad | invblkTo | payloadTo | cksumOk | cksumBad | cksumTo | advance =>
    obtain ⟨-, hst, -⟩ := hs
    cases next_inj he
    simp [hst, successors, transient]
  | soh | eot | ack | nak | can | dataFrame | eotFrame | canSequence => cases hs

theorem decodeControl_ne_atRest (i : Instr) (e : OpEvent) : decodeControl i e ≠ .error .atRest := by
  cases e <;> simp [decodeControl]

theorem decodeReading_ne_atRest (classify : RdResult → Instr) (e : OpEvent) :
    decodeReading classify e ≠ .error .atRest := by
  cases e <;> simp [decodeReading]

/-- R144: the decoder answers `atRest` at rest only. -/
theorem atRest_of_fetch {s : State} (h : fetch s = .error .atRest) : atRest s.st = true := by
  cases htst : s.tst with
  | arm =>
    cases hw : s.st.timeout with
    | some w => simp [fetch_arm htst hw] at h
    | none => simp [fetch, fetchWord, htst, decode, decodeOp, hw] at h
  | poll => simp [fetch_poll htst] at h
  | chk => simp [fetch_chk htst] at h
  | off =>
    rw [fetch_off s htst] at h
    cases hst : s.st with
    | idle | done | failed => rfl
    | loopCheck | preSend | retryInc | sendCtrl | advance | reject | fail | sendCan | sendFinAck =>
      rw [hst] at h
      exact absurd h (decodeControl_ne_atRest _ _)
    | flushResync | flushDup | flushDesync | awaitStart | readBlknum | readInvblk | readPayload | readCksum =>
      rw [hst] at h
      exact absurd h (decodeReading_ne_atRest _ _)

/-- Settles O44: of the moves, only a block cycle writes `st`, and there the operation or the rest follows the table. -/
theorem controlFollowsTheTransitionTable : Obligations.ControlFollowsTheTransitionTable := by
  intro s t h hstep
  obtain ⟨es, n, hmoved⟩ := step_moved s t hstep
  generalize (nextEvent s).1 = e at hmoved
  cases hmoved with
  | rst inp hrst => exact fun hlow => by simp [hrst] at hlow
  | op inp i _ _ hs he =>
    obtain ⟨hregs, -, -⟩ := (inv_iff _).1 (cycleState_inv (s := { s with script := es, draws := n }) { h with } inp)
    exact fun _ => by simpa using exec_successors hregs.read hs he
  | rest inp _ hf =>
    have hrest := atRest_of_fetch hf
    rw [cycleState_st] at hrest
    exact fun _ => by simpa using mem_successors_self (.inr hrest)
  | wire w _ _ he => obtain ⟨bs, rfl | rfl⟩ := exec_wire he <;> rfl
  | arrive | lose | take | read | write | store => rfl

/-! ## The kinds of failure -/

theorem lastErrorOut_eq_zero_iff (s : State) : lastErrorOut s = 0#2 ↔ s.lastError = .none := by
  unfold lastErrorOut
  cases s.lastError <;> decide

theorem lastErrorOut_eq_one_iff (s : State) : lastErrorOut s = 1#2 ↔ s.lastError = .timeout := by
  unfold lastErrorOut
  cases s.lastError <;> decide

/-- R29: the code without a name. -/
theorem lastErrorOut_ne_three (s : State) : lastErrorOut s ≠ 3#2 := by
  unfold lastErrorOut
  cases s.lastError <;> decide

/-- R43, R136: the count 11 and `ERR_TIMEOUT` come together. -/
theorem lastError_timeout_iff {s : State} (h : s.Inv) : s.lastError = .timeout ↔ s.retryCount.toNat = 11 := by
  refine ⟨h.error_timeout, fun h11 => ?_⟩
  obtain hle | ⟨-, he⟩ := h.retry_le
  · omega
  · exact he

/-- Settles O46: the clauses of the invariant, read in `FAILED`. -/
theorem failureKindsAreToldApart : Obligations.FailureKindsAreToldApart := by
  intro s h hst
  have hbi : s.byteIndex.toNat = 0 := by simpa [hst, byteIndexOk] using h.byte_index
  have hwhole : 128 ∣ s.length := by simpa [hbi] using h.whole_blocks
  have hcan : s.canCount.toNat = 3 := by simpa [hst, canCountOk] using h.can_count
  have hfull : s.lastError = .none → s.capacity < s.length + 128 := h.buffer_full (by rw [hst]; rfl)
  exact ⟨fun h0 => hfull ((lastErrorOut_eq_zero_iff s).1 h0),
    (lastErrorOut_eq_one_iff s).trans (lastError_timeout_iff h), lastErrorOut_ne_three s, hwhole, hcan⟩

/-! ## START and rest -/

/-- Settles O11. -/
theorem startInitialisesTheSession : Obligations.StartInitialisesTheSession := by
  refine ⟨fun s hidle htst hstart => ?_, fun s c hidle => exec_start hidle c, fun s c hbusy => if_pos hbusy⟩
  rw [fetch_atRest htst ((atRest_iff_not_busy s).2 hidle), if_pos hstart]

/-- R22, R144: no timed read at rest. -/
theorem reading_of_atRest {st : St} (h : atRest st = true) : reading st = false :=
  Bool.eq_false_iff.2 fun hread => by simp [atRest_of_reading hread] at h

/-- Settles O12: at rest a cycle begins no timed read, and without START it selects nothing. -/
theorem restingBlockChangesNothing : Obligations.RestingBlockChangesNothing := by
  intro s inp es hidle htst hs hrst hstart
  have hrest : atRest s.st = true := (atRest_iff_not_busy s).2 hidle
  have hcycle : cycleState inp { s with script := es } = beginCycle inp { s with script := es } :=
    cycleState_idle _ inp (.inl (reading_of_atRest hrest))
  have hfetch : fetch (beginCycle inp { s with script := es }) = .error .atRest := by
    rw [fetch_atRest (s := beginCycle inp { s with script := es }) htst hrest]
    exact if_neg (by simp [hstart])
  rw [step_event s _ es hs, stepEvent, blockCycle_runs _ _ hrst, hcycle, hfetch]
  rfl

/-! ## The operations of an attempt -/

/-- R103: a control state selects its one operation. -/
theorem fetch_control_at {s : State} {st : St} {i : Instr} (hst : s.st = st) (htst : s.tst = .off)
    (hr : s.result = none) (hrest : atRest st = false)
    (hi : decodeState s.expectedBlockNumber s.checksum .quiet st = .ok i) : fetch s = .ok i := by
  subst hst
  rw [fetch_control s htst hr hrest, hi]

/-- Settles O10. -/
theorem flushesDiscardBytesAndEndOnTheTimeout : Obligations.FlushesDiscardBytesAndEndOnTheTimeout :=
  ⟨fun _ _ htst hr => ⟨fun hst => fetch_result hst htst hr rfl rfl, fun hst => fetch_result hst htst hr rfl rfl,
    fun hst => fetch_result hst htst hr rfl rfl⟩, fun _ _ => ⟨rfl, rfl, rfl⟩, fun _ => ⟨rfl, rfl, rfl⟩⟩

/-- R17, R132. -/
theorem headroom_iff (length capacity : Nat) : headroom length capacity = true ↔ length + 128 ≤ capacity :=
  decide_eq_true_iff

/-- Settles O14. -/
theorem loopchkTestsTheHeadroom : Obligations.LoopchkTestsTheHeadroom :=
  ⟨fun _ hst htst hr => fetch_control_at hst htst hr rfl rfl, fun _ hroom => if_pos ((headroom_iff _ _).2 hroom),
    fun _ hfull => if_neg (mt (headroom_iff _ _).1 (Nat.not_le_of_lt hfull))⟩

/-- Settles O15. -/
theorem presendResetsTheCounterOrFlushes : Obligations.PresendResetsTheCounterOrFlushes :=
  ⟨fun _ hst htst hr => fetch_control_at hst htst hr rfl rfl, fun _ hack => if_pos hack, fun _ hnak => if_neg hnak⟩

/-- R15, R136: the ceiling is tested on the sum before it is cut to 4 bits. -/
theorem exec_retryinc (s : State) :
    exec .retryinc s = .next (if 10 ≤ s.retryCount.toNat then
      { s with retryCount := s.retryCount + 1#4, lastError := .timeout, st := .fail }
      else { s with retryCount := s.retryCount + 1#4, st := .sendCtrl }) := by
  have hsum : BitVec.ofNat 4 (retryNext s.retryCount) = s.retryCount + 1#4 := by simp [retryNext, BitVec.ofNat_add]
  have htest : retryNext s.retryCount > Config.retryCeiling ↔ 10 ≤ s.retryCount.toNat := Nat.lt_succ_iff
  simp only [exec, execRetryinc, hsum, htest]
  split <;> rfl

/-- Settles O16. -/
theorem retryincCountsAndTestsTheCeiling : Obligations.RetryincCountsAndTestsTheCeiling := by
  refine ⟨fun _ hst htst hr => fetch_control_at hst htst hr rfl rfl, fun s hbelow => ?_, fun s hceiling => ?_⟩
  · rw [exec_retryinc, if_neg (Nat.not_le_of_lt hbelow)]
  · rw [exec_retryinc, if_pos hceiling]

/-- Settles O18. -/
theorem rejectRollsTheLengthBack : Obligations.RejectRollsTheLengthBack := by
  refine ⟨fun _ hst htst hr => fetch_control_at hst htst hr rfl rfl, fun s n hn => ?_⟩
  have hcommitted : committed s.length s.byteIndex = n := by rw [committed, ← hn, Nat.add_sub_cancel]
  rw [← hcommitted]
  rfl

/-- Settles O19. -/
theorem failBeginsTheCancelSequence : Obligations.FailBeginsTheCancelSequence :=
  ⟨fun _ hst htst hr => fetch_control_at hst htst hr rfl rfl, fun _ => rfl⟩

/-! ## The three writes -/

section
variable {i : Instr} {s : State} {b : Byte} {after : State → State} (he : exec i s = .next (chanWrite b after s))
  (hops : envOps i s = envWrite b s)
include he hops

/-- R7, R38: a sending operation in the cycle that accepts its byte. -/
theorem write_accepted (hready : s.inp.txReady = true) :
    exec i s = .next (after { s with tx := s.tx ++ [b], txValid := true, txData := b }) ∧
      envOps i s = [.chanWrite b] :=
  ⟨by rw [he, chanWrite_ready b after s hready], by rw [hops, envWrite, if_pos hready]⟩

/-- R7, R245: a sending operation in a cycle that does not. -/
theorem write_waits (hready : s.inp.txReady = false) :
    exec i s = .next { s with txValid := true, txData := b } ∧ envOps i s = [] :=
  ⟨by rw [he, chanWrite_waits b after s hready], by rw [hops, envWrite, if_neg (by simp [hready])]⟩

end

/-- Settles O17. -/
theorem sendctlWritesThePendingByte : Obligations.SendctlWritesThePendingByte :=
  ⟨fun _ hst htst hr => fetch_control_at hst htst hr rfl rfl,
    fun s hready => (write_accepted (i := .sendctl) (s := s) rfl rfl hready :),
    fun s hready => (write_waits (i := .sendctl) (s := s) rfl rfl hready :)⟩

/-- Settles O20. -/
theorem sendcanWritesCanAndCounts : Obligations.SendcanWritesCanAndCounts :=
  ⟨fun _ hst htst hr => fetch_control_at hst htst hr rfl rfl,
    fun s hready => (write_accepted (i := .sendcan) (s := s) rfl rfl hready :),
    fun s hready => (write_waits (i := .sendcan) (s := s) rfl rfl hready :)⟩

/-- Settles O21. -/
theorem finackAcknowledgesAndSucceeds : Obligations.FinackAcknowledgesAndSucceeds :=
  ⟨fun _ hst htst hr => fetch_control_at hst htst hr rfl rfl,
    fun s hready => (write_accepted (i := .finack) (s := s) rfl rfl hready :),
    fun s hready => (write_waits (i := .finack) (s := s) rfl rfl hready :)⟩

end Sys2Proof.Proofs.Session
end

section
/-! PROOFS. The frame parser (42_frame_parser.md R169 to R178): the payload position and the commit, and the block cycles
in which a whole frame that waits in the channel is read, to the commit or the roll-back (20_memory.md R69). -/

namespace Sys2Proof.Proofs.Frame

open Sys2Proof.Machine Sys2Proof.Proofs.Scope Sys2Proof.Proofs.Decoding Sys2Proof.Proofs.Outcomes
  Sys2Proof.Proofs.TimedRead Sys2Proof.Proofs.Session

/-! ## The operations -/

/-- R94: in the payload position the result alone selects. -/
theorem fetch_payload {s : State} {r : RdResult} (hst : s.st = .readPayload) (htst : s.tst = .off)
    (hr : s.result = some r) : fetch s = .ok (classifyPayload r) :=
  fetch_result hst htst hr rfl rfl

/-- Settles O25: the buffer afterwards is one `Memory.write`. -/
theorem payloadByteIsStoredAndSummed : Obligations.PayloadByteIsStoredAndSummed :=
  ⟨fun _ _ hst htst hr => fetch_payload hst htst hr, fun s b => ⟨Memory.write s.mem s.length b, rfl, rfl,
    Memory.read_write_same _ _ _, fun a => Memory.read_write_other _ _ a _⟩⟩

/-- Settles O26. -/
theorem payloadTimeoutRejects : Obligations.PayloadTimeoutRejects :=
  ⟨fun _ hst htst hr => fetch_payload hst htst hr, fun _ => rfl⟩

/-- Settles O28: the number is `nextBlock` of the one before. -/
theorem advanceCommitsTheBlock : Obligations.AdvanceCommitsTheBlock :=
  ⟨fun _ hst htst hr => fetch_control_at hst htst hr rfl rfl,
    fun s => ⟨nextBlock s.expectedBlockNumber, toNat_nextBlock _, rfl⟩⟩

/-! ## Runs over bytes that wait -/

/-- The moves `l` are `n` block cycles without `rst`, and then `es`. -/
def Cycles : Nat → List Event → List Event → Prop
  | 0, es, l => l = es
  | n + 1, es, l => ∃ inp l', l = .cycle inp :: l' ∧ inp.rst = false ∧ Cycles n es l'

theorem cycles_map {ins : List Inputs} (hrst : ∀ i ∈ ins, i.rst = false) (es : List Event) :
    Cycles ins.length es (ins.map .cycle ++ es) := by
  induction ins with
  | nil => rfl
  | cons i ins ih =>
    obtain ⟨hi, hins⟩ := List.forall_mem_cons.1 hrst
    exact ⟨i, _, rfl, hi, ih hins⟩

/-- With the bytes `bs` at the head of the queue, three block cycles a byte take the block from `r` to `t`, its
surroundings apart (`amid`). -/
def Reads (bs : List Byte) (r t : State) : Prop :=
  ∀ (n : Nat) (es : List Event) (rest : List Byte) (v : State), v.rx = bs ++ rest →
    Cycles (n + 3 * bs.length) es v.script →
    ∃ v', v'.rx = rest ∧ Cycles n es v'.script ∧ run (n + 3 * bs.length) (amid v r) = run n (amid v' t)

theorem Reads.nil (r : State) : Reads [] r r := fun _ _ _ v hrx hs => ⟨v, hrx, hs, rfl⟩

theorem Reads.append {as bs : List Byte} {r t u : State} (has : Reads as r t) (hbs : Reads bs t u) :
    Reads (as ++ bs) r u := by
  intro n es rest v hrx hs
  have hcount : n + 3 * (as ++ bs).length = n + 3 * bs.length + 3 * as.length := by rw [List.length_append]; omega
  rw [hcount] at hs ⊢
  obtain ⟨v', hrx', hs', hrun⟩ := has _ es (bs ++ rest) v (by rw [hrx, List.append_assoc]) hs
  obtain ⟨v'', hrx'', hs'', hrun'⟩ := hbs n es rest v' hrx' hs'
  exact ⟨v'', hrx'', hs'', hrun.trans hrun'⟩

/-- The state with a byte waiting for the operation it selects. -/
def answered (b : Byte) (r : State) : State := { r with result := some (.byte b) }

/-- R112, R114: a byte that waits is read in two cycles, and the operation it selects runs in the third. -/
theorem Reads.byte {b : Byte} {r t : State} {st : St} {classify : RdResult → Instr} (hst : r.st = st)
    (htst : r.tst = .off) (hr : r.result = none) (hread : reading st = true)
    (hclass : decodeState r.expectedBlockNumber r.checksum (.byte b) st = decodeReading classify (.byte b))
    (he : exec (classify (.byte b)) (answered b r) = .next t) : Reads [b] r t := by
  subst hst
  intro n es rest v hrx hs
  have hi : fetch (answered b r) = .ok (classify (.byte b)) := fetch_result rfl htst rfl hread hclass
  obtain ⟨w, hw⟩ := reading_timeout r.st hread
  obtain ⟨i1, _, hs, h1, i2, _, rfl, h2, i3, l, rfl, h3, hl⟩ := hs
  have hpolled := run_arm_poll_byte (n + 1) (s := amid v r) hw htst hr hrx hs h1 h2
  set polled : State := { amid v r with
    deadline := i1.now + w, rx := rest, txValid := false, rxPop := true, bufWe := false, result := some (.byte b),
    tst := .off, inp := i2, script := .cycle i3 :: l }
  set c : State := beginCycle i3 { polled with script := l }
  have hc : c = amid c (answered b r) := by simp [c, polled, beginCycle, amid, answered, htst]
  have hfetch : fetch c = .ok (classify (.byte b)) := by rw [hc, fetch_amid c (s := answered b r) hread, hi]
  obtain ⟨we, ht⟩ := exec_amid (s := answered b r) c hread htst (fetch_selects _ _ hi) he
  have hstep : step polled = .next (amid { c with bufWe := we } t) := by
    rw [step_begun (.inr (by simp [polled])) rfl h3 hfetch]
    exact (congrArg (exec _) hc).trans ht
  exact ⟨{ c with bufWe := we }, rfl, hl, hpolled.trans (run_step n _ _ hstep)⟩

/-- The one operation of a state that does not read, where it sees none of the surroundings. -/
theorem step_control {r t v : State} {i : Instr} {es : List Event} (hread : reading r.st = false)
    (hi : ∀ v, fetch (amid v r) = .ok i) (he : ∀ v, exec i (amid v r) = .next (amid v t)) (hs : Cycles 1 es v.script) :
    ∃ v', v'.rx = v.rx ∧ v'.script = es ∧ step (amid v r) = .next (amid v' t) := by
  obtain ⟨inp, l, hs, hrst, hl⟩ := hs
  set c : State := beginCycle inp { amid v r with script := l }
  have hcycle : cycleState inp { amid v r with script := l } = amid c r := cycleState_idle _ inp (.inl hread)
  refine ⟨c, rfl, hl, ?_⟩
  rw [step_cycle (s := amid v r) hs hrst (by rw [hcycle, hi]), hcycle, he]

/-! ## The payload in the buffer -/

/-- The buffer with bytes stored one after the other from an offset on. -/
def storeBytes (m : Memory) (off : Nat) : List Byte → Memory
  | [] => m
  | b :: bs => storeBytes (Memory.write m off b) (off + 1) bs

theorem storeBytes_concat (m : Memory) (off : Nat) (bs : List Byte) (b : Byte) :
    storeBytes m off (bs ++ [b]) = Memory.write (storeBytes m off bs) (off + bs.length) b := by
  induction bs generalizing m off with
  | nil => rfl
  | cons a bs ih => simp only [List.cons_append, storeBytes, ih, List.length_cons, Nat.add_assoc, Nat.add_comm 1]

theorem read_storeBytes_outside (m : Memory) {off a : Nat} {bs : List Byte} (h : a < off ∨ off + bs.length ≤ a) :
    Memory.read (storeBytes m off bs) a = Memory.read m a := by
  induction bs generalizing m off with
  | nil => rfl
  | cons b bs ih =>
    rw [List.length_cons] at h
    rw [storeBytes, ih _ (by omega), Memory.read_write_other _ _ _ _ (by omega)]

theorem read_storeBytes_inside (m : Memory) (off : Nat) {bs : List Byte} {k : Nat} (h : k < bs.length) :
    Memory.read (storeBytes m off bs) (off + k) = bs[k]? := by
  induction bs generalizing m off k with
  | nil => simp at h
  | cons b bs ih =>
    cases k with
    | zero =>
      have hkept := read_storeBytes_outside (Memory.write m off b) (bs := bs) (.inl (Nat.lt_succ_self off))
      exact hkept.trans (Memory.read_write_same m off b)
    | succ k =>
      rw [List.getElem?_cons_succ, ← ih (Memory.write m off b) (off + 1) (Nat.lt_of_succ_lt_succ h), storeBytes,
        Nat.add_right_comm, Nat.add_assoc]

/-- R14: a byte more at the end is a byte more in the running sum. -/
theorem sumBytes_concat (bs : List Byte) (b : Byte) : sumBytes (bs ++ [b]) = sumBytes bs + b := by
  induction bs with
  | nil => simp [sumBytes]
  | cons a bs ih => rw [List.cons_append, sumBytes, ih, sumBytes, BitVec.add_assoc]

/-! ## The frame -/

/-- The block when it has stored the payload bytes `bs` of a frame that it began to read in `s` (R170, R174). -/
def received (bs : List Byte) (s : State) : State :=
  { s with
    st := if bs.length = 128 then .readCksum else .readPayload, result := none, length := s.length + bs.length,
    checksum := sumBytes bs, byteIndex := BitVec.ofNat 8 bs.length, mem := storeBytes s.mem s.length bs,
    bufWe := if bs = [] then s.bufWe else true, bufOff := if bs = [] then s.bufOff else s.length + (bs.length - 1),
    bufWdata := bs.getLastD s.bufWdata }

theorem received_st_of_lt {bs : List Byte} (h : bs.length < 128) (s : State) : (received bs s).st = .readPayload :=
  if_neg h.ne

theorem received_st_of_full {bs : List Byte} (h : bs.length = 128) (s : State) : (received bs s).st = .readCksum :=
  if_pos h

/-- The block when such a frame has been committed or rolled back (R178, R138). -/
def settled (data : List Byte) (cks : Byte) (s : State) : State :=
  { received data s with
    st := .loopCheck, byteIndex := 0#8,
    length := if cks = sumBytes data then s.length + data.length else s.length,
    expectedBlockNumber := if cks = sumBytes data then nextBlock s.expectedBlockNumber else s.expectedBlockNumber,
    pendingAck := if cks = sumBytes data then Config.ack else s.pendingAck }

/-- R174: `PAYLOAD.BYTE` receives one byte more. -/
theorem exec_payloadByte_received {done : List Byte} (hlt : done.length < 128) (s : State) (b : Byte) :
    exec (.payloadByte b) (answered b (received done s)) = .next (received (done ++ [b]) s) := by
  have hcount : BitVec.ofNat 8 done.length + 1#8 = BitVec.ofNat 8 (done.length + 1) := by rw [BitVec.ofNat_add]
  have hfull : BitVec.ofNat 8 (done.length + 1) = BitVec.ofNat 8 Config.blockSize ↔ done.length + 1 = 128 := by
    rw [← BitVec.toNat_inj, BitVec.toNat_ofNat, BitVec.toNat_ofNat]
    simp only [Config.blockSize]
    omega
  simp only [exec, execPayloadByte, received, answered, bufWrite, State.consume, State.goto, addChecksum, hcount, hfull,
    List.length_append, List.length_singleton, sumBytes_concat, storeBytes_concat]
  simp [Nat.add_assoc]

/-- R178: the commit. -/
theorem exec_advance_received {data : List Byte} {cks : Byte} {s : State} (hok : cks = sumBytes data) (v : State) :
    exec .advance (amid v ((received data s).goto .advance)) = .next (amid v (settled data cks s)) := by
  simp only [settled, if_pos hok]
  rfl

/-- R138: the roll-back, by as many bytes as the payload has. -/
theorem exec_reject_received {data : List Byte} {cks : Byte} {s : State} (hlen : data.length = 128)
    (hbad : cks ≠ sumBytes data) (v : State) :
    exec .reject (amid v ((received data s).goto .reject)) = .next (amid v (settled data cks s)) := by
  have hback : committed (s.length + data.length) (BitVec.ofNat 8 data.length) = s.length := by simp [committed, hlen]
  simp only [settled, if_neg hbad]
  rw [← hback]
  rfl

section
variable {s : State} (htst : s.tst = .off)
include htst

/-- R91, R161: the first byte of a frame. -/
theorem reads_soh (hst : s.st = .awaitStart) (hr : s.result = none) :
    Reads [Config.soh] s (s.consume.goto .readBlknum) :=
  .byte (classify := classifyAwait) hst htst hr rfl rfl rfl

/-- R92, R169: the expected number. -/
theorem reads_blknum : Reads [s.expectedBlockNumber] (s.consume.goto .readBlknum) (s.consume.goto .readInvblk) :=
  .byte (classify := classifyBlknum s.expectedBlockNumber) rfl htst rfl rfl rfl (by rw [classifyBlknum_ok rfl]; rfl)

/-- R93, R170: its inverse. -/
theorem reads_invblk : Reads [inverseBlock s.expectedBlockNumber] (s.consume.goto .readInvblk) (received [] s) :=
  .byte (classify := classifyInvblk s.expectedBlockNumber) rfl htst rfl rfl rfl (by rw [classifyInvblk_ok rfl]; rfl)

/-- R174: the payload, from any of its bytes on. -/
theorem reads_payload {done bs : List Byte} (h : done.length + bs.length ≤ 128) :
    Reads bs (received done s) (received (done ++ bs) s) := by
  induction bs generalizing done with
  | nil => rw [List.append_nil]; exact .nil _
  | cons b bs ih =>
    rw [List.length_cons] at h
    have hlt : done.length < 128 := by omega
    have hbyte : Reads [b] (received done s) (received (done ++ [b]) s) :=
      .byte (classify := classifyPayload) (received_st_of_lt hlt s) htst rfl rfl rfl (exec_payloadByte_received hlt s b)
    have hrest := ih (done := done ++ [b]) (by rw [List.length_append, List.length_singleton]; omega)
    rw [List.append_assoc] at hrest
    exact hbyte.append hrest

/-- R95, R175, R176: the checksum byte. -/
theorem reads_cksum {data : List Byte} (hlen : data.length = 128) (cks : Byte) :
    Reads [cks] (received data s) ((received data s).goto (if cks = sumBytes data then .advance else .reject)) := by
  refine .byte (classify := classifyCksum (sumBytes data)) (received_st_of_full hlen s) htst rfl rfl rfl ?_
  simp only [classifyCksum]
  split <;> rfl

/-- R81, R169 to R176: a whole frame that bears the expected number. -/
theorem reads_frame (hst : s.st = .awaitStart) (hr : s.result = none) {data : List Byte} (hlen : data.length = 128)
    (cks : Byte) :
    Reads (frameBytes s.expectedBlockNumber (inverseBlock s.expectedBlockNumber) data cks) s
      ((received data s).goto (if cks = sumBytes data then .advance else .reject)) :=
  (reads_soh htst hst hr).append <| (reads_blknum htst).append <| (reads_invblk htst).append <|
    (reads_payload htst (done := []) (by simp [hlen])).append (reads_cksum htst hlen cks)

/-- R178, R138: the operation behind the frame. -/
theorem step_settles {data : List Byte} (hlen : data.length = 128) (cks : Byte) {v : State} {es : List Event}
    (hs : Cycles 1 es v.script) :
    ∃ v', v'.rx = v.rx ∧ v'.script = es ∧
      step (amid v ((received data s).goto (if cks = sumBytes data then .advance else .reject))) =
        .next (amid v' (settled data cks s)) := by
  by_cases hok : cks = sumBytes data
  · rw [if_pos hok]
    exact step_control rfl (fun _ => fetch_control_at rfl htst rfl rfl rfl) (exec_advance_received hok) hs
  · rw [if_neg hok]
    exact step_control rfl (fun _ => fetch_control_at rfl htst rfl rfl rfl) (exec_reject_received hlen hok) hs

end

/-- Settles O56: 132 bytes are read in three cycles each, one more cycle settles the block, and the rest is what
`settled` says of the state then. -/
theorem frameIsCommittedOrRolledBack : Obligations.FrameIsCommittedOrRolledBack := by
  intro s data cks rest ins es hst htst hr hlen hrx hins hrst hs
  have hcycles : Cycles 397 es s.script := by rw [hs, ← hins]; exact cycles_map hrst es
  have hframe : s.rx = frameBytes s.expectedBlockNumber (inverseBlock s.expectedBlockNumber) data cks ++ rest := by
    simp [hrx, frameBytes]
  have hcount : 1 + 3 * (frameBytes s.expectedBlockNumber (inverseBlock s.expectedBlockNumber) data cks).length = 397 := by
    simp [frameBytes, hlen]
  obtain ⟨v, hvrx, hvs, hrun⟩ := reads_frame htst hst hr hlen cks 1 es rest s hframe (hcount ▸ hcycles)
  obtain ⟨v', hrx', hs', hstep⟩ := step_settles htst hlen cks hvs
  have hrun' : run 397 s = .next (amid v' (settled data cks s)) := by
    rw [← hcount]
    exact hrun.trans (run_step 0 _ _ hstep)
  exact ⟨_, hrun', rfl, hrx'.trans hvrx, rfl, hs', rfl, rfl, rfl, rfl,
    fun k hk => read_storeBytes_inside s.mem s.length (hlen.symm ▸ hk),
    fun a ha => read_storeBytes_outside s.mem (hlen.symm ▸ ha),
    fun hok => ⟨(if_pos hok).trans (by rw [hlen]), if_pos hok, if_pos hok⟩,
    fun hbad => ⟨if_neg hbad, if_neg hbad, if_neg hbad⟩⟩

end Sys2Proof.Proofs.Frame
end

section
/-! PROOFS. What happens around a fault (60_exceptions.md R199, R200, R204): the block cycles in which a retry and a
terminal failure are entered, and the wire items of the channel's owner. -/

namespace Sys2Proof.Proofs.Exceptions

open Sys2Proof.Machine Sys2Proof.Proofs.Outcomes Sys2Proof.Proofs.Progress Sys2Proof.Proofs.TimedRead
  Sys2Proof.Proofs.Session

/-! ## The cycles of the control states -/

/-- R22, R110: a state that reads nothing has no timed read in progress and no result waiting. -/
theorem quiet_of_not_reading {s : State} (h : s.Inv) (hread : reading s.st = false) : s.tst = .off ∧ s.result = none := by
  constructor
  · by_contra htst
    simp [h.tst_reading htst] at hread
  · by_contra hwaits
    simp [(h.result_reading hwaits).1] at hread

section
variable {n : Nat} {s : State} {inp : Inputs} {es : List Event} (htst : s.tst = .off) (hr : s.result = none)
  (hs : s.script = .cycle inp :: es) (hrst : inp.rst = false)
include htst hr hs hrst

/-- R103: a block cycle without `rst` in a state that neither rests nor reads, at the head of a run. -/
theorem run_control {t : State} {st : St} {i : Instr} (hst : s.st = st) (hrest : atRest st = false)
    (hread : reading st = false) (hi : decodeState s.expectedBlockNumber s.checksum .quiet st = .ok i)
    (he : exec i (beginCycle inp { s with script := es }) = .next t) : run (n + 1) s = run n t := by
  subst hst
  have hcycle : cycleState inp { s with script := es } = _ := cycleState_idle _ inp (.inl hread)
  have hfetch : fetch (cycleState inp { s with script := es }) = .ok i := by
    rw [hcycle]
    exact fetch_control_at rfl htst hr hrest hi
  refine run_step _ _ _ ?_
  rw [step_cycle hs hrst hfetch, hcycle, he]

/-- R138. -/
theorem run_reject (hst : s.st = .reject) :
    run (n + 1) s = run n { s with
      length := s.length - s.byteIndex.toNat, byteIndex := 0#8, st := .loopCheck, inp := inp, txValid := false,
      rxPop := false, bufWe := false, script := es } :=
  run_control htst hr hs hrst hst rfl rfl rfl rfl

/-- R132, with room for a block. -/
theorem run_loopchk (hst : s.st = .loopCheck) (hroom : s.length + 128 ≤ s.capacity) :
    run (n + 1) s = run n { s with
      st := .preSend, inp := inp, txValid := false, rxPop := false, bufWe := false, script := es } :=
  run_control htst hr hs hrst hst rfl rfl rfl (if_pos ((headroom_iff _ _).2 hroom))

/-- R133, with another byte than `ACK` pending. -/
theorem run_presend (hst : s.st = .preSend) (hnak : s.pendingAck ≠ 0x06#8) :
    run (n + 1) s = run n { s with
      st := .flushResync, inp := inp, txValid := false, rxPop := false, bufWe := false, script := es } :=
  run_control htst hr hs hrst hst rfl rfl rfl (if_neg hnak)

/-- R139. -/
theorem run_fail (hst : s.st = .fail) :
    run (n + 1) s = run n { s with
      canCount := 0#2, st := .sendCan, inp := inp, txValid := false, rxPop := false, bufWe := false, script := es } :=
  run_control htst hr hs hrst hst rfl rfl rfl rfl

/-- R140, the write accepted. -/
theorem run_sendcan (hst : s.st = .sendCan) (hready : inp.txReady = true) :
    run (n + 1) s = run n { s with
      tx := s.tx ++ [0x18#8], txValid := true, txData := 0x18#8, canCount := s.canCount + 1#2,
      st := if s.canCount + 1#2 = 3#2 then .failed else .sendCan, inp := inp, rxPop := false, bufWe := false,
      script := es } :=
  run_control htst hr hs hrst hst rfl rfl rfl (congrArg Host.Outcome.next (chanWrite_ready _ _ _ hready))

end

/-! ## The two entries -/

/-- Settles O48: the roll-back leaves the room for a block that the attempt began with, and `NAK` is pending. -/
theorem retryEntryRollsBackAndFlushes : Obligations.RetryEntryRollsBackAndFlushes := by
  intro s i1 i2 i3 es h hst hs h1 h2 h3
  obtain ⟨htst, hr⟩ := quiet_of_not_reading h (by rw [hst]; rfl)
  have hroom : s.length - s.byteIndex.toNat + 128 ≤ s.capacity := h.headroom (by rw [hst]; rfl)
  have hnak : s.pendingAck = 0x15#8 := h.pending_nak (.inl (by rw [hst]; rfl))
  exact Eq.trans (run_reject htst hr hs h1 hst) <| Eq.trans (run_loopchk htst hr rfl h2 rfl hroom)
    (run_presend htst hr rfl h3 rfl (by simp [hnak]))

/-- Settles O49: `can_count` is cleared, and the third `CAN` accepted takes it to 3. -/
theorem terminalEntrySendsThreeCan : Obligations.TerminalEntrySendsThreeCan := by
  intro s i1 i2 i3 i4 es h hst hs h1 h2 h3 h4 hready2 hready3 hready4
  obtain ⟨htst, hr⟩ := quiet_of_not_reading h (by rw [hst]; rfl)
  have hthree : s.tx ++ [0x18#8, 0x18#8, 0x18#8] = s.tx ++ [0x18#8] ++ [0x18#8] ++ [0x18#8] := by simp
  rw [hthree]
  exact Eq.trans (run_fail htst hr hs h1 hst) <| Eq.trans (run_sendcan htst hr rfl h2 rfl hready2) <|
    Eq.trans (run_sendcan htst hr rfl h3 rfl hready3) (run_sendcan htst hr rfl h4 rfl hready4)

/-! ## Wire items -/

/-- Settles O33: only a written item while the block owns the channel is refused (R204, U6). -/
theorem wireMoveRunsItsRow : Obligations.WireMoveRunsItsRow := by
  intro s w es hs
  rw [step_event s _ es hs]
  refine ⟨fun hfree => ?_, fun hw hbusy => wire_refused hw hbusy⟩
  have hpasses : ¬ (writtenItem w && busy s) = true := by simpa [imp_iff_not_or] using hfree
  exact if_neg hpasses

end Sys2Proof.Proofs.Exceptions
end

section
/-! PROOFS. Hardware reset (70_reset_and_hazards.md R230): a cycle with `rst` answers the column "after `rst`" of R44
from every state, and leaves the buffer and the channel alone but for the byte being written. -/

namespace Sys2Proof.Proofs.Reset

open Sys2Proof.Machine Sys2Proof.Proofs.Registers

/-- R230: `rst` comes first; the operation that the state selects does not matter. -/
theorem blockCycle_rst (s : State) {inp : Inputs} (h : inp.rst = true) :
    blockCycle inp s = .next (hardReset (beginCycle inp s)) := if_pos h

/-- U7: the byte being written may or may not have gone out; no other byte is added. -/
theorem txAfterReset_cases (s : State) :
    txAfterReset s = s.tx ∨ ∃ b, writing s = some b ∧ txAfterReset s = s.tx ++ [b] := by
  unfold txAfterReset
  split
  case h_1 b hb =>
    split
    · exact .inr ⟨b, hb, rfl⟩
    · exact .inl rfl
  case h_2 => exact .inl rfl

/-- Settles O36: the registers and flags stand as in the reset state (O37), the rest as the cycle found it. -/
theorem hardwareResetForcesIdle : Obligations.HardwareResetForcesIdle := by
  intro s inp es hs hrst
  have htx := txAfterReset_cases (beginCycle inp { s with script := es })
  obtain ⟨hst, htst, hlength, hblock, hretry, hack, herror, hcks, hindex, hdeadline, hcan, hcapacity, hvalid, hpop, hwe,
    hbusy, hdone, hok⟩ := resetValues
  refine ⟨_, (step_event s _ es hs).trans (blockCycle_rst _ hrst), ?_⟩
  exact ⟨hst, htst, hlength, hblock, hretry, hack, herror, hcks, hindex, hdeadline, hcan, hcapacity, hvalid, hpop, hwe,
    hbusy, hdone, hok, rfl, rfl, htx, rfl, rfl⟩

end Sys2Proof.Proofs.Reset
end
